-- ==== Sys2Proof/Word.lean ====
section
/-! DEFINITION. The words of the block (spec 00_scope R10): every width is written where a value is defined, bit 0 is
the least significant bit, and nothing in the block is signed. -/

namespace Sys2Proof

/-- One bit of the block: a register of width 1, or a line of the panel. -/
abbrev Bit := BitVec 1

/-- Eight bits: a PortByte, an LCD command value, a buffer byte (20_memory R57). -/
abbrev Byte := BitVec 8

/-- Thirty-two bits: a request word or a buffer address (30_encoding R78, 20_memory R53). -/
abbrev Word := BitVec 32

/-- The bit position of a line within a PortByte, 0 to 7 (00_scope R7). -/
abbrev Pos := BitVec 3

end Sys2Proof
end

