-- ==== Sys2Proof/Config.lean ====
section
/-! DEFINITION. What is fixed when a block is constructed: the parameters of spec 00_scope R7, held in the
configuration registers of 10_state R22. Every OPEN parameter (DEV_ADDR, GPIO_REG, REG_PREFIX, EXPANDER_INIT_SEQ,
T_STD_US) is a field like the others, so that a statement about every state is a statement about every value of it. -/

namespace Sys2Proof

/-- The configuration registers (10_state R22): loaded at construction, never written afterwards. -/
structure Config where
  /-- `CFG_BL`: the backlight line's bit position. -/
  cfgBl : Pos
  /-- `CFG_D7`: DB7's bit position. -/
  cfgD7 : Pos
  /-- `CFG_D6`: DB6's bit position. -/
  cfgD6 : Pos
  /-- `CFG_D5`: DB5's bit position. -/
  cfgD5 : Pos
  /-- `CFG_D4`: DB4's bit position. -/
  cfgD4 : Pos
  /-- `CFG_E`: the enable line's bit position. -/
  cfgE : Pos
  /-- `CFG_RS`: the register-select line's bit position. -/
  cfgRs : Pos
  /-- `DEV_ADDR`: the one device every session is opened to (20_memory R51). OPEN. -/
  devAddr : BitVec 7
  /-- `GPIO_REG`: the expander's output register address (20_memory R52). OPEN. -/
  gpioReg : Byte
  /-- `REG_PREFIX`: whether each session first writes `GPIO_REG` (20_memory R52). OPEN. -/
  regPrefix : Bool
  /-- `EXPANDER_INIT_SEQ`: the bytes INITX sends (41_init R130), 0 to 255 of them. OPEN. -/
  expanderInitSeq : List Byte
  /-- `T_POR1_US`, microseconds. -/
  tPor1Us : Nat
  /-- `T_SHORT_US`, microseconds. -/
  tShortUs : Nat
  /-- `T_STD_US`, microseconds. OPEN. -/
  tStdUs : Nat
  /-- `T_CLEAR_US`, microseconds. -/
  tClearUs : Nat
  /-- `T_HOME_US`, microseconds. -/
  tHomeUs : Nat
  /-- `T_BLINK_US`, microseconds. -/
  tBlinkUs : Nat
  deriving DecidableEq, Repr

/-- The seven configured bit positions (00_scope R8). -/
def Config.positions (c : Config) : List Pos :=
  [c.cfgBl, c.cfgD7, c.cfgD6, c.cfgD5, c.cfgD4, c.cfgE, c.cfgRs]

/-- `CFG_UNUSED` (00_scope R8): the position in 0..7 that none of the seven names; a view, stored nowhere else. -/
def Config.cfgUnused (c : Config) : Pos :=
  (([0, 1, 2, 3, 4, 5, 6, 7] : List Pos).find? fun k => !c.positions.contains k).getD 0

/-- The configuration of `State.reset`: the defaults of 00_scope R7. DESIGN CHOICE (log entry 7), unsafe where a claim
rests on it: the five OPEN parameters, which the spec gives no value, are 0, false or empty here. -/
def Config.default : Config where
  cfgBl := 7
  cfgD7 := 6
  cfgD6 := 5
  cfgD5 := 4
  cfgD4 := 3
  cfgE := 2
  cfgRs := 1
  devAddr := 0
  gpioReg := 0
  regPrefix := false
  expanderInitSeq := []
  tPor1Us := 4100
  tShortUs := 100
  tStdUs := 0
  tClearUs := 2000
  tHomeUs := 2000
  tBlinkUs := 250000

end Sys2Proof
end

