-- ==== Sys2Proof/Syntax.lean ====
section
/-! DEFINITION. The requests of the block (spec 30_encoding R79, opcode_table.json): one constructor per row, each
operand at exactly its field's width; and the assembler's forms (R89, R90), whose operands are numbers that may not fit. -/

namespace Sys2Proof

/-- The seven requests, one per row of spec/opcode_table.json (30_encoding R79). -/
inductive Instr where
  /-- `INITX`: initialize the expander (41_init R130). -/
  | initx
  /-- `INITD`: initialize the display (41_init R132). -/
  | initd
  /-- `PUTC val, pos`: one character (42_character R160). -/
  | putc (val pos : Byte)
  /-- `PUTS buf, pos, len`: a string from the buffer memory (42_character R163). -/
  | puts (buf : Word) (pos len : Byte)
  /-- `SETBL on`: set the backlight (43_backlight_clear R190). -/
  | setbl (on : Bit)
  /-- `BLINK count`: blink the backlight (43_backlight_clear R193). -/
  | blink (count : Byte)
  /-- `CLEAR`: clear the display (43_backlight_clear R196). -/
  | clear
  deriving DecidableEq, Repr

/-- What the host presents: word 0, and the word that follows it, which only a PUTS takes (30_encoding R78, R80). -/
structure Request where
  /-- The first request word. -/
  w0 : Word
  /-- The word after it; a request of one word does not use it. -/
  w1 : Word
  deriving DecidableEq, Repr

/-- Why a request word is illegal (30_encoding R81); the block answers all of them with the one status
`ILLEGAL_REQUEST`. -/
inductive Illegal where
  /-- `OP` is 0x0 or 0x8 to 0xF. -/
  | opReserved
  /-- `RSV` is not 0. -/
  | rsvNotZero
  /-- A field that R78 says must be 0 is not 0. -/
  | fieldNotZero
  deriving DecidableEq, Repr

/-- A number as the assembler reads it (30_encoding R89): decimal and hexadecimal name a natural, a character in
single quotes its byte value. -/
inductive AsmNum where
  /-- A decimal number. -/
  | dec (n : Nat)
  /-- A number written after `0x`. -/
  | hex (n : Nat)
  /-- A character in single quotes, as the byte the host supplies for it. -/
  | chr (b : Byte)
  deriving DecidableEq, Repr

/-- The natural a written number names. -/
def AsmNum.value : AsmNum → Nat
  | .dec n => n
  | .hex n => n
  | .chr b => b.toNat

/-- A line of the assembler: the mnemonics of 30_encoding R89 and the pseudo-requests of R90. -/
inductive Asm where
  /-- `INITX` -/
  | initx
  /-- `INITD` -/
  | initd
  /-- `PUTC val, pos` -/
  | putc (val pos : AsmNum)
  /-- `PUTC val` (R90): at the current cursor. -/
  | putcHere (val : AsmNum)
  /-- `PUTS buf, pos, len` -/
  | puts (buf pos len : AsmNum)
  /-- `PUTSZ buf, pos` (R90): a terminated string. -/
  | putsz (buf pos : AsmNum)
  /-- `PUTSZ buf` (R90): a terminated string at the current cursor. -/
  | putszHere (buf : AsmNum)
  /-- `SETBL on` -/
  | setbl (on : AsmNum)
  /-- `BLON` (R90). -/
  | blon
  /-- `BLOFF` (R90). -/
  | bloff
  /-- `BLINK count` -/
  | blink (count : AsmNum)
  /-- `CLEAR` -/
  | clear
  deriving DecidableEq, Repr

end Sys2Proof
end

