-- ==== Sys2Proof/Machine/State.lean ====
section
/-! DEFINITION. The state of one block and of the agents around it, as plain data (spec 10_state; 00_scope R5, R12),
its value after reset (70_reset_and_hazards R250), and the reasons a step can stop. -/

namespace Sys2Proof.Machine

open Sys2Proof

/-- An answer of the bus transport (00_scope R11, 60_exceptions R222). -/
inductive Answer where
  /-- `OK` -/
  | ok
  /-- `ERR` -/
  | err
  deriving DecidableEq, Repr

/-- The delay classes (30_encoding R84); codes in `DelayClass.code`. Code 7 is reserved and never used. -/
inductive DelayClass where
  | none | por1 | short | std | clear | home | blink
  deriving DecidableEq, Repr

/-- The response status codes (30_encoding R85); codes in `Status.code`. Codes 4 to 15 are never produced. -/
inductive Status where
  | ok | busErrorOpen | busErrorWrite | illegalRequest
  deriving DecidableEq, Repr

/-- The `ERR_STAGE` codes (30_encoding R88); codes in `ErrStage.code`. Code 3 is reserved. -/
inductive ErrStage where
  | none | opening | writing
  deriving DecidableEq, Repr

/-- What the block knows of the panel (10_state R27); codes in `Link.code`. -/
inductive Link where
  | unknown | ready | indeterminate
  deriving DecidableEq, Repr

/-- The sequencer's phases (30_encoding R86); codes in `Phase.code`. Codes 13 to 15 are unreachable. -/
inductive Phase where
  /-- 0 IDLE: the block may accept a request. -/
  | idle
  /-- 1 OPEN: `BusOpen(DEV_ADDR)`. -/
  | openBus
  /-- 2 PREFIX: `BusWrite(GPIO_REG)`. -/
  | preWrite
  /-- 3 WRITE: `BusWrite` of a command-writer byte. -/
  | write
  /-- 4 WAIT_IN: `Wait(PEND)` inside a session. -/
  | waitIn
  /-- 5 READ: `MemRead(BUF + IDX, 1)`. -/
  | read
  /-- 6 CLOSE: `BusClose()`. -/
  | close
  /-- 7 WAIT_TAIL: `Wait(PEND)` after the session's close. -/
  | waitTail
  /-- 8 RAW: `BusWrite(EXPANDER_INIT_SEQ[IDX])`. -/
  | raw
  /-- 9 BLWRITE: `BusWrite` of the SETBL byte. -/
  | blWrite
  /-- 10 BLWAIT: `Wait(BLINK)`. -/
  | blWait
  /-- 11 RESP: `Respond(STATUS)`. -/
  | resp
  /-- 12 FAULTED: none, ever. -/
  | faulted
  deriving DecidableEq, Repr

/-- The command writer's position within one LogicalCommand (30_encoding R87); codes in `Sub.code`. Codes 6 and 7 are
unreachable. -/
inductive Sub where
  | hiSet | hiEh | hiEl | loSet | loEh | loEl
  deriving DecidableEq, Repr

/-- `SEQ`, the block's program counter (10_state R30, R31), with four hidden fields of the model's own, which are 0
whenever no request is in progress (log entries 9, 10, 11, 16). -/
structure Seq where
  /-- `SEQ.PH` -/
  ph : Phase
  /-- `SEQ.STEP`: the INITD step 1..10, else 0. -/
  step : BitVec 4
  /-- `SEQ.SUB` -/
  sub : Sub
  /-- `SEQ.IDX`: the next byte of EXPANDER_INIT_SEQ or of the buffer. -/
  idx : BitVec 32
  /-- `SEQ.CNT`: BLINK repetitions still to perform. -/
  cnt : BitVec 8
  /-- `SEQ.HALF`: 0 in the on half, 1 in the off half of a BLINK repetition. -/
  half : Bit
  /-- `SEQ.CUR`: the value of the LogicalCommand being written. -/
  cur : Byte
  /-- The value of the LogicalCommand issued, the `v` of 40_encoder_writer R106, from its IssueCommand on: `SEQ.CUR` takes
  it only after the owed delay. DESIGN CHOICE (log entry 16): the spec names no register that holds it meanwhile; safe,
  nothing outside the block can read it. -/
  issued : Byte
  /-- Register-select of the LogicalCommand issued, the `rs` of 30_encoding R76. DESIGN CHOICE (log entry 9):
  the spec names no register that holds it; safe, nothing outside the block can read it. -/
  rs : Bit
  /-- The abort of 60_exceptions R224 is on its way to its response. DESIGN CHOICE (log entry 10): the spec names no
  register that holds it; safe, nothing outside the block can read it. -/
  abort : Bit
  /-- The bus call of this phase has been made and its answer is awaited. DESIGN CHOICE (log entry 11): the spec names
  no register that holds it; safe, it keeps a stalled call from being counted twice. -/
  asked : Bit
  deriving DecidableEq, Repr

/-- `SEQ` at reset and, but for the phase, at the acceptance of a request (10_state R30, R31). -/
def Seq.zero : Seq where
  ph := .idle
  step := 0
  sub := .hiSet
  idx := 0
  cnt := 0
  half := 0
  cur := 0
  issued := 0
  rs := 0
  abort := 0
  asked := 0

/-- Draws of an agent, as plain data: first those of `script` in order, then `rest` for ever, where `none` means that
the agent never answers again (60_exceptions R222, R234, R239). -/
structure Tape (α : Type) where
  /-- The next draws. -/
  script : List α
  /-- What follows them, for ever. -/
  rest : Option α
  deriving DecidableEq, Repr

/-- A change the host makes to the buffer memory: the location holds the byte, or is no longer held (20_memory R64). -/
structure Edit where
  /-- The address changed. -/
  addr : Word
  /-- Its new byte; none: the location is no longer held. -/
  val : Option Byte
  deriving DecidableEq, Repr

/-- The host (00_scope R5): the requests it will present, each after the previous response (70_reset_and_hazards R257),
and the changes it makes to the buffer memory before each read the block makes (20_memory R64, 93 U17). -/
structure HostAgent where
  /-- Requests not yet accepted, the next one first. -/
  queue : List Request
  /-- For each read to come, in order, the changes made before it; where the list is exhausted, none. -/
  edits : List (List Edit)
  deriving DecidableEq, Repr

/-- Which of the block's three kinds of byte a bus write carries: the prefix byte, a byte of EXPANDER_INIT_SEQ, or a
PortByte (30_encoding R75). The model's annotation of a trace event (log entry 17). -/
inductive WriteKind where
  | pre | raw | port
  deriving DecidableEq, Repr

/-- The events of a trace (00_scope R12). A write carries its kind and a delay its length in microseconds beside what
R12 gives them (log entry 17); `Event.bare` forgets both. -/
inductive Event where
  /-- `Open(dev, r)` -/
  | opened (dev : BitVec 7) (r : Answer)
  /-- `Write(b, r)` -/
  | wrote (b : Byte) (kind : WriteKind) (r : Answer)
  /-- `Close` -/
  | closed
  /-- `Delay(c)`, which lasted `us` microseconds -/
  | delayed (c : DelayClass) (us : Nat)
  /-- `Read(addr, v)`; none is `UNMAPPED` -/
  | readAt (addr : Word) (v : Option Byte)
  /-- `Resp(status)` -/
  | responded (status : Status)
  deriving DecidableEq, Repr

/-- Why the machine stops for good. -/
inductive Fault where
  /-- Raised by a step from FAULTED, the phase a PUTS enters when it reads outside its buffer (60_exceptions R226: "from
  FAULTED the block has no step at all"). Safe: the machine stops where the hardware would read some value and go on. -/
  | bufFault
  deriving DecidableEq, Repr

/-- Why an instruction or a state has no meaning. -/
inductive Refusal where
  /-- An instruction whose meaning is not modelled; raised by no arm of this model. Safe. -/
  | notModelled (mnemonic : String)
  /-- A sequencer state that the spec calls unreachable (30_encoding R86, R87; 93 U14: "refuse: never produced"): a
  phase that the latched request never enters, an INITD step outside 1..10, or a latch that holds no legal request.
  Raised by the sequencer. Safe: no run from reset reaches such a state. -/
  | unreachableSeq
  deriving DecidableEq, Repr

/-- The block, its agents and the observation of its run. -/
structure State where
  /-- The configuration registers (10_state R22). -/
  cfg : Config
  /-- `BL` (10_state R21). -/
  bl : Bit
  /-- `REQ0` (10_state R24). -/
  req0 : Word
  /-- `REQ1` (10_state R24). -/
  req1 : Word
  /-- `SEQ` (10_state R30, R31). -/
  seq : Seq
  /-- `SESSION` (10_state R28). -/
  session : Bit
  /-- `PEND` (10_state R29). -/
  pend : DelayClass
  /-- `STATUS` (10_state R25). -/
  status : Status
  /-- `ERR_OP` (10_state R26). -/
  errOp : BitVec 4
  /-- `ERR_STAGE` (10_state R26). -/
  errStage : ErrStage
  /-- `ERR_STEP` (10_state R26). -/
  errStep : BitVec 4
  /-- `ERR_WIDX` (10_state R26). -/
  errWidx : BitVec 64
  /-- `LINK` (10_state R27). -/
  link : Link
  /-- `FAULT` (10_state R32). -/
  fault : Bit
  /-- The buffer memory (20_memory R53): the locations it holds, addresses rising; an unlisted one answers UNMAPPED. -/
  mem : List Host.Cell
  /-- The bus transport's answers to come: FREE (60_exceptions R222). -/
  transport : Tape Answer
  /-- By how many microseconds the timer will overshoot each wait to come: FREE (60_exceptions R234). -/
  timer : Tape Nat
  /-- The host: its queue, and its changes of the buffer, which are FREE (20_memory R64). -/
  host : HostAgent
  /-- The expander's output pins, pin i at bit i; none: unknown (60_exceptions R235, R225; 70 R252). -/
  pins : Option Byte
  /-- The trace of the run so far, oldest event first (00_scope R12). -/
  trace : List Event
  deriving DecidableEq, Repr

/-- A block just constructed from a configuration (70_reset_and_hazards R250, R251, R252). DESIGN CHOICES: `REQ0` and
`REQ1`, which the spec leaves unspecified, are 0 (log entry 8); the transport will answer OK and the timer overshoot by
0, for ever (log entries 2, 3); the host presents nothing and changes nothing (4, 5); the buffer memory holds nothing
(6). Unsafe where a claim rests on one of these values. -/
def State.constructed (c : Config) : State where
  cfg := c
  bl := 0
  req0 := 0
  req1 := 0
  seq := Seq.zero
  session := 0
  pend := .none
  status := .ok
  errOp := 0
  errStage := .none
  errStep := 0
  errWidx := 0
  link := .unknown
  fault := 0
  mem := []
  transport := ⟨[], some .ok⟩
  timer := ⟨[], some 0⟩
  host := ⟨[], []⟩
  pins := none
  trace := []

/-- The machine right after reset, with the default configuration (70_reset_and_hazards R250). -/
def State.reset : State := State.constructed Config.default

end Sys2Proof.Machine
end

