-- ==== Sys2Proof/Machine/Flags.lean ====
section
/-! DEFINITION. The codes of the block's registers (spec 30_encoding R84 to R88, 10_state R27) and what the host sees
(10_state R33, R36). The block has no arithmetic flags (R33). -/

namespace Sys2Proof.Machine

open Sys2Proof

/-- `PEND` codes (30_encoding R84). -/
def DelayClass.code : DelayClass → BitVec 3
  | .none => 0
  | .por1 => 1
  | .short => 2
  | .std => 3
  | .clear => 4
  | .home => 5
  | .blink => 6

/-- `STATUS` codes (30_encoding R85). -/
def Status.code : Status → BitVec 4
  | .ok => 0
  | .busErrorOpen => 1
  | .busErrorWrite => 2
  | .illegalRequest => 3

/-- `ERR_STAGE` codes (30_encoding R88). -/
def ErrStage.code : ErrStage → BitVec 2
  | .none => 0
  | .opening => 1
  | .writing => 2

/-- `LINK` codes (10_state R27). -/
def Link.code : Link → BitVec 2
  | .unknown => 0
  | .ready => 1
  | .indeterminate => 2

/-- `SEQ.PH` codes (30_encoding R86). -/
def Phase.code : Phase → BitVec 4
  | .idle => 0
  | .openBus => 1
  | .preWrite => 2
  | .write => 3
  | .waitIn => 4
  | .read => 5
  | .close => 6
  | .waitTail => 7
  | .raw => 8
  | .blWrite => 9
  | .blWait => 10
  | .resp => 11
  | .faulted => 12

/-- `SEQ.SUB` codes (30_encoding R87). -/
def Sub.code : Sub → BitVec 3
  | .hiSet => 0
  | .hiEh => 1
  | .hiEl => 2
  | .loSet => 3
  | .loEh => 4
  | .loEl => 5

/-- `BUSY` = (`SEQ.PH` ≠ IDLE) (10_state R33). -/
def State.busy (s : State) : Bool := s.seq.ph != .idle

/-- The status a BusError is answered with (60_exceptions R224). -/
def ErrStage.status : ErrStage → Status
  | .opening => .busErrorOpen
  | .none | .writing => .busErrorWrite

/-- The host-visible state, as the host reads it: exactly what 10_state R36 lists. DESIGN CHOICE (log entry 33): R23's
table also marks the configuration registers host-visible, read-only; R36's "exactly" is followed, and the constants the
host constructed the block with are not read back. -/
structure HostView where
  busy : Bool
  status : BitVec 4
  errOp : BitVec 4
  errStage : BitVec 2
  errStep : BitVec 4
  errWidx : BitVec 64
  link : BitVec 2
  fault : Bit
  bl : Bit
  deriving DecidableEq, Repr

/-- What the host reads in a state (10_state R36). -/
def State.hostView (s : State) : HostView where
  busy := s.busy
  status := s.status.code
  errOp := s.errOp
  errStage := s.errStage.code
  errStep := s.errStep
  errWidx := s.errWidx
  link := s.link.code
  fault := s.fault
  bl := s.bl

end Sys2Proof.Machine
end

