-- ==== Sys2Proof/Machine/Memory.lean ====
section
/-! DEFINITION. The buffer memory (spec 20_memory R53): a list of cells, addresses strictly rising and below 2^32. A
location the list does not hold answers UNMAPPED, so no cell can equal what an unlisted address reads as. The block
only reads it; the writes are the host's (R64). -/

namespace Sys2Proof.Machine

open Sys2Proof

/-- `MemRead(a, 1)`: the byte, or none for `UNMAPPED` (00_scope R11). -/
def Memory.read : List Host.Cell → Nat → Option Byte
  | [], _ => none
  | (k, v) :: m, a => if k = a then some v else Memory.read m a

/-- The location `a` holds `v`. -/
def Memory.write : List Host.Cell → Nat → Byte → List Host.Cell
  | [], a, v => [(a, v)]
  | (k, w) :: m, a, v =>
    if a < k then (a, v) :: (k, w) :: m
    else if a = k then (a, v) :: m
    else (k, w) :: Memory.write m a v

/-- The memory no longer holds the location `a`. -/
def Memory.erase : List Host.Cell → Nat → List Host.Cell
  | [], _ => []
  | (k, w) :: m, a => if k = a then m else (k, w) :: Memory.erase m a

/-- The canonical form: addresses strictly rising, each a 32-bit address. -/
abbrev Memory.wf (m : List Host.Cell) : Prop :=
  m.Pairwise (fun c d => c.1 < d.1) ∧ ∀ c ∈ m, c.1 < 2 ^ 32

/-- One change by the host (20_memory R64). -/
def Memory.edit (m : List Host.Cell) (e : Edit) : List Host.Cell :=
  match e.val with
  | some v => Memory.write m e.addr.toNat v
  | none => Memory.erase m e.addr.toNat

/-- Changes by the host, in order. -/
def Memory.edits (m : List Host.Cell) : List Edit → List Host.Cell
  | [] => m
  | e :: es => Memory.edits (Memory.edit m e) es

end Sys2Proof.Machine
end

