-- ==== Sys2Proof/WellFormed.lean ====
section
/-! DEFINITION. The checks that can fail: a configuration a block may be constructed from (spec 00_scope R8) and an
assembler line whose operands fit (30_encoding R89). A term of `Instr` cannot be ill formed: each operand has exactly
the width of its field (R82), and R82 checks no operand's range beyond that. -/

namespace Sys2Proof

/-- A well-formed configuration (00_scope R8): the seven positions are pairwise distinct (their type keeps them in
0..7), and EXPANDER_INIT_SEQ has at most 255 bytes (R7). -/
abbrev Config.wf (c : Config) : Prop :=
  c.positions.Nodup ∧ c.expanderInitSeq.length ≤ 255

/-- The assembler's check (30_encoding R89): "Each operand must fit its field (val, pos, len, count: 0 to 255; on: 0
or 1; buf: 0 to 2^32 - 1); an assembler refuses one that does not." -/
def Asm.wf : Asm → Bool
  | .initx | .initd | .blon | .bloff | .clear => true
  | .putc val pos => val.value ≤ 255 && pos.value ≤ 255
  | .putcHere val => val.value ≤ 255
  | .puts buf pos len => buf.value < 2 ^ 32 && pos.value ≤ 255 && len.value ≤ 255
  | .putsz buf pos => buf.value < 2 ^ 32 && pos.value ≤ 255
  | .putszHere buf => buf.value < 2 ^ 32
  | .setbl on => on.value ≤ 1
  | .blink count => count.value ≤ 255

end Sys2Proof
end

