-- ==== Sys2Proof/Decode.lean ====
section
/-! DEFINITION. Decoding a request (spec 30_encoding R78 to R82) and, after it, the encoder written from the same
table, the assembler (R89, R90), from the characters of a line on, and the host's numbering of a row's bits. -/

namespace Sys2Proof

/-- `OP`, bits 31:28 of word 0 (30_encoding R78). -/
def fieldOp (w : Word) : BitVec 4 := w.extractLsb' 28 4

/-- `RSV`, bits 27:24 of word 0. -/
def fieldRsv (w : Word) : BitVec 4 := w.extractLsb' 24 4

/-- `A`, bits 23:16 of word 0. -/
def fieldA (w : Word) : Byte := w.extractLsb' 16 8

/-- `B`, bits 15:8 of word 0. -/
def fieldB (w : Word) : Byte := w.extractLsb' 8 8

/-- `C`, bits 7:0 of word 0. -/
def fieldC (w : Word) : Byte := w.extractLsb' 0 8

/-- `C[7:1]`, which SETBL requires to be 0. -/
def fieldCHigh (w : Word) : BitVec 7 := w.extractLsb' 1 7

/-- `C[0]`, SETBL's `ON`. -/
def fieldOn (w : Word) : Bit := w.extractLsb' 0 1

/-- The request two words stand for, or why word 0 is illegal (30_encoding R79 to R82). Word 1 is used by PUTS only
(R80). -/
def decode (w0 w1 : Word) : Except Illegal Instr :=
  if fieldRsv w0 ≠ 0 then .error .rsvNotZero
  else match (fieldOp w0).toNat with
  | 1 => if fieldA w0 = 0 ∧ fieldB w0 = 0 ∧ fieldC w0 = 0 then .ok .initx else .error .fieldNotZero
  | 2 => if fieldA w0 = 0 ∧ fieldB w0 = 0 ∧ fieldC w0 = 0 then .ok .initd else .error .fieldNotZero
  | 3 => if fieldA w0 = 0 then .ok (.putc (fieldC w0) (fieldB w0)) else .error .fieldNotZero
  | 4 => if fieldC w0 = 0 then .ok (.puts w1 (fieldB w0) (fieldA w0)) else .error .fieldNotZero
  | 5 => if fieldA w0 = 0 ∧ fieldB w0 = 0 ∧ fieldCHigh w0 = 0 then .ok (.setbl (fieldOn w0)) else .error .fieldNotZero
  | 6 => if fieldA w0 = 0 ∧ fieldB w0 = 0 then .ok (.blink (fieldC w0)) else .error .fieldNotZero
  | 7 => if fieldA w0 = 0 ∧ fieldB w0 = 0 ∧ fieldC w0 = 0 then .ok .clear else .error .fieldNotZero
  | _ => .error .opReserved

/-- How many words a request takes, told from `OP` alone (30_encoding R80). -/
def requestWords (w0 : Word) : Nat := if fieldOp w0 = 4 then 2 else 1

/-- Word 0 from its fields, `RSV` 0 (30_encoding R78). -/
def packWord (op : BitVec 4) (a b c : Byte) : Word :=
  BitVec.ofNat 32 (op.toNat * 0x10000000 + a.toNat * 0x10000 + b.toNat * 0x100 + c.toNat)

/-- The operation code of a request (30_encoding R79). -/
def opcode : Instr → BitVec 4
  | .initx => 1
  | .initd => 2
  | .putc _ _ => 3
  | .puts _ _ _ => 4
  | .setbl _ => 5
  | .blink _ => 6
  | .clear => 7

/-- The words of a request (30_encoding R78, R79; opcode_table.json). Word 1 of a one-word request is 0. -/
def encode : Instr → Request
  | .initx => ⟨packWord 1 0 0 0, 0⟩
  | .initd => ⟨packWord 2 0 0 0, 0⟩
  | .putc val pos => ⟨packWord 3 0 pos val, 0⟩
  | .puts buf pos len => ⟨packWord 4 len pos 0, buf⟩
  | .setbl on => ⟨packWord 5 0 0 (on.setWidth 8), 0⟩
  | .blink count => ⟨packWord 6 0 0 count, 0⟩
  | .clear => ⟨packWord 7 0 0 0, 0⟩

/-- The request an assembler line stands for, or none where an operand does not fit (30_encoding R89, R90). -/
def assemble (l : Asm) : Option Instr :=
  if l.wf then
    some <| match l with
    | .initx => .initx
    | .initd => .initd
    | .putc val pos => .putc (BitVec.ofNat 8 val.value) (BitVec.ofNat 8 pos.value)
    | .putcHere val => .putc (BitVec.ofNat 8 val.value) 0xFF
    | .puts buf pos len =>
      .puts (BitVec.ofNat 32 buf.value) (BitVec.ofNat 8 pos.value) (BitVec.ofNat 8 len.value)
    | .putsz buf pos => .puts (BitVec.ofNat 32 buf.value) (BitVec.ofNat 8 pos.value) 0
    | .putszHere buf => .puts (BitVec.ofNat 32 buf.value) 0xFF 0
    | .setbl on => .setbl (BitVec.ofNat 1 on.value)
    | .blon => .setbl 1
    | .bloff => .setbl 0
    | .blink count => .blink (BitVec.ofNat 8 count.value)
    | .clear => .clear
  else none

/-! ### Reading an assembler line (30_encoding R89)

The mnemonic stands first, in capitals; operands follow, separated by commas, with spaces allowed around each; what
stands after a semicolon is a comment. The spacing, the capitals and both cases of hexadecimal digits are the model's
choices (log entry 30). -/

/-- The value of a digit, at most 15. -/
def digitValue (c : Char) : Option Nat :=
  if 48 ≤ c.toNat ∧ c.toNat ≤ 57 then some (c.toNat - 48)
  else if 97 ≤ c.toNat ∧ c.toNat ≤ 102 then some (c.toNat - 87)
  else if 65 ≤ c.toNat ∧ c.toNat ≤ 70 then some (c.toNat - 55)
  else none

/-- The number digits stand for in a base, after those already read; none where one is no digit of the base. -/
def readDigits (base : Nat) : Nat → List Char → Option Nat
  | n, [] => some n
  | n, c :: cs =>
    match digitValue c with
    | some v => if v < base then readDigits base (n * base + v) cs else none
    | none => none

/-- A number: hexadecimal after `0x`, a character in single quotes, or decimal (R89). `byteOf` is the host's byte for
a character. -/
def readNumber (byteOf : Char → Option Byte) : List Char → Option AsmNum
  | [] | ['0', 'x'] => none
  | '0' :: 'x' :: cs => (readDigits 16 0 cs).map .hex
  | ['\'', c, '\''] => (byteOf c).map .chr
  | cs => (readDigits 10 0 cs).map .dec

/-- Spaces before a text are dropped. -/
def dropSpaces (cs : List Char) : List Char := cs.dropWhile (· == ' ')

/-- Spaces on both sides of a text are dropped. -/
def trimSpaces (cs : List Char) : List Char := (dropSpaces (dropSpaces cs).reverse).reverse

/-- A line without its comment; a quoted semicolon begins none. -/
def dropComment : List Char → List Char
  | [] => []
  | '\'' :: c :: '\'' :: cs => '\'' :: c :: '\'' :: dropComment cs
  | c :: cs => if c = ';' then [] else c :: dropComment cs

/-- The texts between commas; a quoted comma separates nothing. `cur` is the current text, last character first. -/
def splitCommas (cur : List Char) : List Char → List (List Char)
  | [] => [cur.reverse]
  | '\'' :: c :: '\'' :: cs => splitCommas ('\'' :: c :: '\'' :: cur) cs
  | c :: cs => if c = ',' then cur.reverse :: splitCommas [] cs else splitCommas (c :: cur) cs

/-- The operands after a mnemonic; none where one is no number. -/
def readOperands (byteOf : Char → Option Byte) (cs : List Char) : Option (List AsmNum) :=
  if trimSpaces cs = [] then some []
  else (splitCommas [] cs).mapM fun t => readNumber byteOf (trimSpaces t)

/-- The line a mnemonic and its operands stand for (R89, R90); none where there is none. -/
def lineOf : List Char → List AsmNum → Option Asm
  | ['I', 'N', 'I', 'T', 'X'], [] => some .initx
  | ['I', 'N', 'I', 'T', 'D'], [] => some .initd
  | ['P', 'U', 'T', 'C'], [val, pos] => some (.putc val pos)
  | ['P', 'U', 'T', 'C'], [val] => some (.putcHere val)
  | ['P', 'U', 'T', 'S'], [buf, pos, len] => some (.puts buf pos len)
  | ['P', 'U', 'T', 'S', 'Z'], [buf, pos] => some (.putsz buf pos)
  | ['P', 'U', 'T', 'S', 'Z'], [buf] => some (.putszHere buf)
  | ['S', 'E', 'T', 'B', 'L'], [on] => some (.setbl on)
  | ['B', 'L', 'O', 'N'], [] => some .blon
  | ['B', 'L', 'O', 'F', 'F'], [] => some .bloff
  | ['B', 'L', 'I', 'N', 'K'], [count] => some (.blink count)
  | ['C', 'L', 'E', 'A', 'R'], [] => some .clear
  | _, _ => none

/-- An assembler line read from its characters. -/
def readLine (byteOf : Char → Option Byte) (line : List Char) : Option Asm :=
  let cs := dropSpaces (dropComment line)
  let rest := cs.dropWhile (· != ' ')
  (readOperands byteOf rest).bind (lineOf (cs.takeWhile (· != ' ')))

/-- The words an assembler line stands for, refused where it is none or an operand does not fit (R89, R90). -/
def assembleLine (byteOf : Char → Option Byte) (line : List Char) : Option Request :=
  ((readLine byteOf line).bind assemble).map encode

/-- The two request words whose bits are `w`, as opcode_table.json numbers them: bits 31:0 are word 0, bits 63:32 are
word 1, and every bit from `nbits` on is 0. -/
def requestOfBits (nbits w : Nat) : Request :=
  let v := w % 2 ^ nbits
  ⟨BitVec.ofNat 32 v, BitVec.ofNat 32 (v / 2 ^ 32)⟩

/-- What the decoder reads from a request whose bits are `w` (none where it refuses). -/
def decodeTableWord (nbits w : Nat) : Option Instr :=
  match decode (requestOfBits nbits w).w0 (requestOfBits nbits w).w1 with
  | .ok i => some i
  | .error _ => none

end Sys2Proof
end

