-- ==== Sys2Proof/Machine/Encoder.lean ====
section
/-! DEFINITION. The Signal Encoder and the bytes of the command writer (spec 40_encoder_writer R100 to R105, 30_encoding
R70, R87; 43_backlight_clear R191). -/

namespace Sys2Proof.Machine

open Sys2Proof

/-- The half of a value an encoding carries (40_encoder_writer R101). -/
inductive Half where
  | upper | lower
  deriving DecidableEq, Repr

/-- The transfer mode of a LogicalCommand (30_encoding R76). -/
inductive Mode where
  | byte | nibble
  deriving DecidableEq, Repr

/-- `1 << k`: the byte with only bit `k` set (00_scope R10). -/
def oneHot (k : Pos) : Byte := 1#8 <<< k.toNat

/-- The assignment `p[k] = b` (00_scope R10). -/
def setBit (p : Byte) (k : Pos) (b : Bit) : Byte :=
  (p &&& ~~~oneHot k) ||| (b.setWidth 8 <<< k.toNat)

/-- The nibble `n` of 40_encoder_writer R100. -/
def nibbleOf (v : Byte) : Half → BitVec 4
  | .upper => v.extractLsb' 4 4
  | .lower => v.extractLsb' 0 4

/-- Register-select coerced to one bit (40_encoder_writer R102). -/
def coerceRs (rs : Nat) : Bit := if rs = 0 then 0 else 1

/-- The Signal Encoder, assignment by assignment (40_encoder_writer R100). -/
def signalEncode (c : Config) (v : Byte) (half : Half) (rs : Nat) (bl : Bit) : Byte :=
  let n := nibbleOf v half
  let p := setBit 0 c.cfgBl bl
  let p := setBit p c.cfgD7 (n.extractLsb' 3 1)
  let p := setBit p c.cfgD6 (n.extractLsb' 2 1)
  let p := setBit p c.cfgD5 (n.extractLsb' 1 1)
  let p := setBit p c.cfgD4 (n.extractLsb' 0 1)
  setBit p c.cfgRs (coerceRs rs)

/-- A byte with enable asserted (40_encoder_writer R104). -/
def withEnable (c : Config) (b : Byte) : Byte := b ||| oneHot c.cfgE

/-- A byte with enable deasserted (40_encoder_writer R104). -/
def withoutEnable (c : Config) (b : Byte) : Byte := b &&& ~~~oneHot c.cfgE

/-- The byte the command writer writes at each position (30_encoding R87). -/
def writerByte (c : Config) (v : Byte) (rs : Nat) (bl : Bit) : Sub → Byte
  | .hiSet => signalEncode c v .upper rs bl
  | .hiEh => withEnable c (signalEncode c v .upper rs bl)
  | .hiEl => withoutEnable c (signalEncode c v .upper rs bl)
  | .loSet => signalEncode c v .lower rs bl
  | .loEh => withEnable c (signalEncode c v .lower rs bl)
  | .loEl => withoutEnable c (signalEncode c v .lower rs bl)

/-- The SETBL byte: `BL` at `CFG_BL`, every other bit 0 (43_backlight_clear R190, R191). -/
def backlightByte (c : Config) (bl : Bit) : Byte := bl.setWidth 8 <<< c.cfgBl.toNat

end Sys2Proof.Machine
end

