-- ==== Sys2Proof/Machine/Operands.lean ====
section
/-! DEFINITION. Every operand the operations read, from the latches alone (spec 30_encoding R82, 10_state R24), the
cursor-set command (42_character R161), the delay classes' durations (30_encoding R84) and the init step table (41_init
R131). -/

namespace Sys2Proof.Machine

open Sys2Proof

/-- `OP` of the latched request. -/
def State.opOf (s : State) : BitVec 4 := fieldOp s.req0

/-- `POS` (30_encoding R82). -/
def State.posOf (s : State) : Byte := fieldB s.req0

/-- `VAL` (30_encoding R82). -/
def State.valOf (s : State) : Byte := fieldC s.req0

/-- `LEN` (30_encoding R82). -/
def State.lenOf (s : State) : Byte := fieldA s.req0

/-- `COUNT` (30_encoding R82). -/
def State.countOf (s : State) : Byte := fieldC s.req0

/-- `ON` (30_encoding R82). -/
def State.onOf (s : State) : Bit := fieldOn s.req0

/-- `BUF` (30_encoding R82). -/
def State.bufOf (s : State) : Word := s.req1

/-- The sentinel "do not reposition" (30_encoding R83). -/
def posSentinel : Byte := 0xFF

/-- The cursor-set command `0x80 | POS` (42_character R161). -/
def cursorSet (pos : Byte) : Byte := 0x80 ||| pos

/-- The address of byte `i` of a PUTS (20_memory R66). -/
def bufferAddr (buf : Word) (i : BitVec 32) : Word := buf + i

/-- The minimum length of a wait, in microseconds (30_encoding R84). -/
def duration (c : Config) : DelayClass → Nat
  | .none => 0
  | .por1 => c.tPor1Us
  | .short => c.tShortUs
  | .std => c.tStdUs
  | .clear => c.tClearUs
  | .home => c.tHomeUs
  | .blink => c.tBlinkUs

/-- One row of the init step table (41_init R131); the register-select of every row is Command. -/
structure InitStep where
  value : Byte
  mode : Mode
  cls : DelayClass
  deriving DecidableEq, Repr

/-- `ROM[1..10]` (41_init R131); none outside 1..10. -/
def initRom (k : BitVec 4) : Option InitStep :=
  match k.toNat with
  | 1 => some ⟨0x30, .byte, .por1⟩
  | 2 => some ⟨0x30, .byte, .short⟩
  | 3 => some ⟨0x30, .byte, .short⟩
  | 4 => some ⟨0x20, .byte, .std⟩
  | 5 => some ⟨0x28, .nibble, .std⟩
  | 6 => some ⟨0x08, .nibble, .std⟩
  | 7 => some ⟨0x01, .nibble, .clear⟩
  | 8 => some ⟨0x06, .nibble, .std⟩
  | 9 => some ⟨0x02, .nibble, .home⟩
  | 10 => some ⟨0x0C, .nibble, .std⟩
  | _ => none

end Sys2Proof.Machine
end

