-- ==== Sys2Proof/Machine/Ops.lean ====
section
/-! DEFINITION. The operations the requests share: the primitives (spec 00_scope R11), the session (20_memory R56), the
command writer with its pending delay (40_encoder_writer R104 to R106), the response, acceptance and refusal (60_exceptions
R221), the abort (R224) and the buffer fault (R226). Each phase of the sequencer performs one primitive (10_state R30);
an operation takes, as its argument `next`, where the sequencer goes when the primitive is answered. -/

namespace Sys2Proof.Machine

open Sys2Proof

/-- What one step of the sequencer leads to. -/
inductive Move where
  /-- The primitive is complete and the sequencer goes on. -/
  | go (s : State)
  /-- The sequencer stops here: it has responded, it is FAULTED, or the agent it called has not answered. -/
  | halt (s : State)
  /-- No meaning. -/
  | refused (r : Refusal)
  deriving Repr

/-- The next draw of a tape and the tape after it; none: the agent never answers again. -/
def Tape.draw {α : Type} : Tape α → Option (α × Tape α)
  | ⟨a :: l, r⟩ => some (a, ⟨l, r⟩)
  | ⟨[], some a⟩ => some (a, ⟨[], some a⟩)
  | ⟨[], none⟩ => none

/-- `SEQ <- state`, the phase alone (00_scope R11). -/
def State.goto (s : State) (p : Phase) : State := { s with seq := { s.seq with ph := p } }

/-- An event is added to the trace (00_scope R12). -/
def State.log (s : State) (e : Event) : State := { s with trace := s.trace ++ [e] }

/-- What a byte written leaves on the expander's pins: every byte answered OK drives them, pin i from bit i (20_memory
R58, 60_exceptions R235, 92 D30), the prefix byte and a byte of EXPANDER_INIT_SEQ included; after a failed write they are
unknown (R225). Log entry 18. -/
def pinsAfter (b : Byte) : Answer → Option Byte
  | .ok => some b
  | .err => none

/-- A block from a configuration, refused where that is not well formed (00_scope R8, 70_reset_and_hazards R250). -/
def State.construct (c : Config) : Option State :=
  if c.wf then some (State.constructed c) else none

/-! ### The abort and the buffer fault -/

/-- `raise BusError(stage)`, up to its `BusClose` (60_exceptions R224): where it happened is recorded, the owed delay is
dropped, and the sequencer goes to CLOSE (41_init R133); the expander is left indeterminate, so its pins are unknown (log
entry 18). What follows the close is `State.abortClosed`. -/
def State.raiseBusError (stage : ErrStage) (s : State) : State :=
  { s with
    errOp := s.opOf
    errStage := stage
    errStep := s.seq.step
    pend := .none
    pins := none
    seq := { s.seq with ph := .close, abort := 1 } }

/-- The rest of `raise BusError` after its `EndSession()` (60_exceptions R224): `LINK` and `STATUS`, then the response. -/
def State.abortClosed (s : State) : State :=
  { s with link := .indeterminate, status := s.errStage.status, seq := { s.seq with ph := .resp } }

/-- `raise BufFault()` (60_exceptions R226). -/
def State.raiseBufFault (s : State) : State :=
  { s with fault := 1, seq := { s.seq with ph := .faulted } }

/-! ### Bus, timer, memory -/

/-- The state once the call of this phase has been made: `onCall` is done with the call, and not again while its answer
is awaited (60_exceptions R239). -/
def State.called (onCall : State → State) (s : State) : State :=
  if s.seq.asked = 1 then s else { onCall s with seq := { (onCall s).seq with asked := 1 } }

/-- The state once the transport has given the answer the draw is taken from; `t` is the tape after it. -/
def State.answered (t : Tape Answer) (s : State) : State :=
  { s with transport := t, seq := { s.seq with asked := 0 } }

/-- A call of the transport: its answer, when there is one, is the next draw (60_exceptions R222); while there is none
the block stays in its phase (R239). -/
def busCall (onCall : State → State) (onAnswer : Answer → State → Move) (s : State) : Move :=
  match s.transport.draw with
  | none => .halt (s.called onCall)
  | some (a, t) => onAnswer a ((s.called onCall).answered t)

/-- `SESSION <- 1`, made with the call of `BusOpen` (10_state R28, 20_memory R56). -/
def State.enterSession (s : State) : State := { s with session := 1 }

/-- `ERR_WIDX <- ERR_WIDX + 1`, made before each `BusWrite` (10_state R26). -/
def State.countWrite (s : State) : State := { s with errWidx := s.errWidx + 1 }

/-- `BusOpen(DEV_ADDR)` and its BusError (20_memory R56, 60_exceptions R223). -/
def busOpen (next : State → State) : State → Move :=
  busCall State.enterSession fun a s =>
    let s := s.log (.opened s.cfg.devAddr a)
    match a with
    | .ok => .go (next s)
    | .err => .go (s.raiseBusError .opening)

/-- `Put(b)`: one counted bus write and its BusError (40_encoder_writer R104, 60_exceptions R225). -/
def put (b : Byte) (kind : WriteKind) (next : State → State) : State → Move :=
  busCall State.countWrite fun a s =>
    let s := { s.log (.wrote b kind a) with pins := pinsAfter b a }
    match a with
    | .ok => .go (next s)
    | .err => .go (s.raiseBusError .writing)

/-- `Wait(c)`: it lasts the class's duration and whatever the timer adds to it (30_encoding R84, 60_exceptions R234). While
the timer has not answered, the block stays in its phase (R239) and no event is in the trace: DESIGN CHOICE (log entry
34), the spec does not say whether a wait that never ends leaves its `Delay(c)`. -/
def waitFor (c : DelayClass) (next : State → State) (s : State) : Move :=
  match s.timer.draw with
  | none => .halt s
  | some (late, t) => .go (next ({ s with timer := t }.log (.delayed c (duration s.cfg c + late))))

/-- The changes the host makes to the buffer before the block's next read (20_memory R64). -/
def State.hostEdits (s : State) : State :=
  match s.host.edits with
  | [] => s
  | es :: rest => { s with mem := Memory.edits s.mem es, host := { s.host with edits := rest } }

/-- `MemRead(addr, 1)` of whatever the memory holds at that step (20_memory R53, R64). -/
def memRead (addr : Word) (onByte : Option Byte → State → Move) (s : State) : Move :=
  let s := s.hostEdits
  let v := Memory.read s.mem addr.toNat
  onByte v (s.log (.readAt addr v))

/-! ### The response -/

/-- `STATUS <- OK`, then the response. -/
def State.respondOk (s : State) : State :=
  { s with status := .ok, seq := { s.seq with ph := .resp } }

/-- `SEQ` after a response: (IDLE, 0, 0) (41_init R133); the other counters keep what they hold until the next
acceptance (log entry 15). -/
def Seq.afterResponse (q : Seq) : Seq :=
  { q with ph := .idle, step := 0, sub := .hiSet, issued := 0, rs := 0, abort := 0, asked := 0 }

/-- Phase RESP: `Respond(STATUS)` (00_scope R11). -/
def respPhase (s : State) : Move :=
  .halt { s.log (.responded s.status) with seq := s.seq.afterResponse }

/-! ### The session -/

/-- Phase OPEN of `BeginSession()` (20_memory R56); `first` is where the sequencer goes once the session is begun. -/
def openPhase (first : State → State) : State → Move :=
  busOpen fun s => if s.cfg.regPrefix then s.goto .preWrite else first s

/-- Phase PREFIX of `BeginSession()` (20_memory R52, R56). -/
def prePhase (first : State → State) (s : State) : Move :=
  put s.cfg.gpioReg .pre first s

/-- `BusClose(); SESSION <- 0` (20_memory R56), after which `SEQ.SUB` is 0, wherever a failed command left it (41_init R133,
row CLOSE). -/
def State.endSession (s : State) : State :=
  { s.log .closed with session := 0, seq := { s.seq with sub := .hiSet } }

/-- Phase CLOSE: `EndSession()`, then `after`; on the way of an abort, its rest (60_exceptions R224). -/
def closePhase (after : State → State) (s : State) : Move :=
  .go (if s.seq.abort = 1 then s.endSession.abortClosed else after s.endSession)

/-! ### The command writer -/

/-- `IssueCommand(v, mode, rs, cls)` up to its first primitive (40_encoder_writer R106): where no delay is owed,
`WriteCommand` starts at once, with `SEQ.CUR <- v` (R105); else the delay is waited first, in phase WAIT_IN. -/
def State.issueCommand (v : Byte) (rs : Bit) (s : State) : State :=
  { s with seq := { s.seq with
      issued := v
      cur := if s.pend = .none then v else s.seq.cur
      rs := rs
      sub := .hiSet
      ph := if s.pend = .none then .write else .waitIn } }

/-- The start of `WriteCommand` after the delay owed before it (40_encoder_writer R105, R106): `SEQ.CUR <- v`. -/
def State.startCommand (s : State) : State :=
  { s with seq := { s.seq with cur := s.seq.issued, ph := .write } }

/-- Phase WAIT_IN (40_encoder_writer R106): `Wait(PEND); PEND <- NONE`, then `WriteCommand`. -/
def waitInPhase (s : State) : Move :=
  if s.pend = .none then .go s.startCommand
  else waitFor s.pend (fun s => { s with pend := .none }.startCommand) s

/-- Where the command writer goes after each byte (40_encoder_writer R104, R105; 41_init R133): to the next of its three
or six positions, or to the end of the command. -/
def State.afterByte (mode : Mode) (atEnd : State → State) (s : State) : State :=
  match s.seq.sub, mode with
  | .hiSet, _ => { s with seq := { s.seq with sub := .hiEh } }
  | .hiEh, _ => { s with seq := { s.seq with sub := .hiEl } }
  | .hiEl, .nibble => { s with seq := { s.seq with sub := .loSet } }
  | .hiEl, .byte => atEnd { s with seq := { s.seq with sub := .hiSet } }
  | .loSet, _ => { s with seq := { s.seq with sub := .loEh } }
  | .loEh, _ => { s with seq := { s.seq with sub := .loEl } }
  | .loEl, _ => atEnd { s with seq := { s.seq with sub := .hiSet } }

/-- The byte of phase WRITE (30_encoding R87); `BL` is read at each byte (40_encoder_writer R105). -/
def State.writerByteOf (s : State) : Byte :=
  writerByte s.cfg s.seq.cur s.seq.rs.toNat s.bl s.seq.sub

/-- Phase WRITE: `WriteCommand` byte by byte (40_encoder_writer R105), then `PEND <- cls` (R106) and `atEnd`. -/
def writePhase (mode : Mode) (cls : DelayClass) (atEnd : State → State) (s : State) : Move :=
  put s.writerByteOf .port (State.afterByte mode fun s => atEnd { s with pend := cls }) s

/-- `FinishCommands()` after its `EndSession()` (40_encoder_writer R106). -/
def State.finishCommands (done : State → State) (s : State) : State :=
  if s.pend = .none then done s else s.goto .waitTail

/-- Phase WAIT_TAIL (40_encoder_writer R106). -/
def waitTailPhase (done : State → State) (s : State) : Move :=
  if s.pend = .none then .go (done s)
  else waitFor s.pend (fun s => done { s with pend := .none }) s

/-! ### Acceptance -/

/-- `REQ0` and, when `OP` is 4, `REQ1` are latched (60_exceptions R221, 30_encoding R80). -/
def State.latch (r : Request) (s : State) : State :=
  { s with req0 := r.w0, req1 := if requestWords r.w0 = 2 then r.w1 else s.req1 }

/-- Acceptance of a legal request, up to the operation's own first assignments (60_exceptions R221). -/
def State.accept (r : Request) (s : State) : State :=
  { s.latch r with errWidx := 0, seq := Seq.zero }

/-- Acceptance of an illegal request word: the response, and no other effect (60_exceptions R221; the latch, log
entry 14). -/
def State.rejectIllegal (r : Request) (s : State) : State :=
  { s.latch r with status := .illegalRequest }.log (.responded .illegalRequest)

/-- The request the host presents and the state once it has been taken; none while it presents nothing. -/
def State.takeRequest (s : State) : Option (Request × State) :=
  match s.host.queue with
  | [] => none
  | r :: q => some (r, { s with host := { s.host with queue := q } })

/-! ### Running the sequencer -/

/-- How many primitives one step of the machine performs at most. No request needs as many (log entry 28): a PUTS of
2^32 characters takes fewer than 2^36. -/
def maxPrimitives : Nat := 2 ^ 37

/-- The sequencer runs, one primitive after another (20_memory R61), until it halts. -/
def run (tick : State → Move) : Nat → State → Host.Outcome State Fault Refusal
  | 0, s => .next s
  | n + 1, s =>
    match tick s with
    | .go s' => run tick n s'
    | .halt s' => .next s'
    | .refused r => .refused r

/-- A legal request presented to the block (60_exceptions R221): an IDLE block accepts it, makes the operation's first
assignments `start`, and runs the operation's sequencer `tick` until it responds, faults or waits for an agent; a busy
block accepts nothing, so the request waits; a FAULTED block has no step at all (R226). -/
def serve (start : State → State) (tick : State → Move) (r : Request) (s : State) :
    Host.Outcome State Fault Refusal :=
  match s.seq.ph with
  | .idle => run tick maxPrimitives (start (s.accept r))
  | .faulted => .fault .bufFault
  | .openBus | .preWrite | .write | .waitIn | .read | .close | .waitTail | .raw | .blWrite | .blWait | .resp => .next s

end Sys2Proof.Machine
end

