-- ==== Sys2Proof/Machine/Backlight.lean ====
section
/-! DEFINITION. SETBL, BLINK and CLEAR (spec 43_backlight_clear). -/

namespace Sys2Proof.Machine

open Sys2Proof

/-- `SetBacklightStep(on)` up to its `BusOpen` (R190): `BL` is written before the session opens, and no failure restores
it (R192). -/
def State.backlightStep (on : Bit) (s : State) : State :=
  { s with bl := on, seq := { s.seq with ph := .openBus } }

/-- Phase BLWRITE: the one unpulsed byte (R190, R191). -/
def blWritePhase (s : State) : Move :=
  put (backlightByte s.cfg s.bl) .port (fun s => s.goto .close) s

/-- Once the session of a `SetBacklightStep` is begun. -/
def blFirst (s : State) : State := s.goto .blWrite

/-! ### SETBL (R190 to R192) -/

/-- `SetBacklightStep(ON)`. -/
def setblStart (s : State) : State := s.backlightStep s.onOf

/-- One step of the sequencer in a SETBL (43_backlight_clear R190). -/
def setblTick (s : State) : Move :=
  match s.seq.ph with
  | .openBus => openPhase blFirst s
  | .preWrite => prePhase blFirst s
  | .blWrite => blWritePhase s
  | .close => closePhase State.respondOk s
  | .resp => respPhase s
  | .idle | .write | .waitIn | .read | .waitTail | .raw | .blWait | .faulted => .refused .unreachableSeq

/-- SETBL (43_backlight_clear R190). -/
def execSetbl (on : Bit) (s : State) : Host.Outcome State Fault Refusal :=
  serve setblStart setblTick (encode (.setbl on)) s

/-! ### BLINK (R193 to R195) -/

/-- The loop head: the on half of another repetition, or the response. -/
def blinkLoop (s : State) : State :=
  if s.seq.cnt = 0 then s.respondOk
  else { s with seq := { s.seq with half := 0 } }.backlightStep 1

/-- `SEQ.CNT <- COUNT`. -/
def blinkStart (s : State) : State :=
  blinkLoop { s with seq := { s.seq with cnt := s.countOf } }

/-- After a half's delay: the off half, or the end of the repetition. -/
def blinkNext (s : State) : State :=
  if s.seq.half = 0 then { s with seq := { s.seq with half := 1 } }.backlightStep 0
  else blinkLoop { s with seq := { s.seq with cnt := s.seq.cnt - 1 } }

/-- One step of the sequencer in a BLINK (43_backlight_clear R193). -/
def blinkTick (s : State) : Move :=
  match s.seq.ph with
  | .openBus => openPhase blFirst s
  | .preWrite => prePhase blFirst s
  | .blWrite => blWritePhase s
  | .close => closePhase (fun s => s.goto .blWait) s
  | .blWait => waitFor .blink blinkNext s
  | .resp => respPhase s
  | .idle | .write | .waitIn | .read | .waitTail | .raw | .faulted => .refused .unreachableSeq

/-- BLINK (43_backlight_clear R193). -/
def execBlink (count : Byte) (s : State) : Host.Outcome State Fault Refusal :=
  serve blinkStart blinkTick (encode (.blink count)) s

/-! ### CLEAR (R196, R197) -/

/-- `PEND <- NONE; BeginSession()`. -/
def clearStart (s : State) : State :=
  { s with pend := .none, seq := { s.seq with ph := .openBus } }

/-- `IssueCommand(0x01, NIBBLE, 0, CLEAR)`. -/
def clearFirst (s : State) : State := s.issueCommand 0x01 0

/-- One step of the sequencer in a CLEAR (43_backlight_clear R196). -/
def clearTick (s : State) : Move :=
  match s.seq.ph with
  | .openBus => openPhase clearFirst s
  | .preWrite => prePhase clearFirst s
  | .write => writePhase .nibble .clear (fun s => s.goto .close) s
  | .waitIn => waitInPhase s
  | .close => closePhase (State.finishCommands State.respondOk) s
  | .waitTail => waitTailPhase State.respondOk s
  | .resp => respPhase s
  | .idle | .read | .raw | .blWrite | .blWait | .faulted => .refused .unreachableSeq

/-- CLEAR (43_backlight_clear R196). -/
def execClear (s : State) : Host.Outcome State Fault Refusal :=
  serve clearStart clearTick (encode .clear) s

end Sys2Proof.Machine
end

