-- ==== Sys2Proof/Machine/Character.lean ====
section
/-! DEFINITION. PUTC and PUTS (spec 42_character). -/

namespace Sys2Proof.Machine

open Sys2Proof

/-! ### PUTC (R160 to R162) -/

/-- `PEND <- NONE; BeginSession()`. -/
def putcStart (s : State) : State :=
  { s with pend := .none, seq := { s.seq with ph := .openBus } }

/-- The character, as Data. -/
def putcChar (s : State) : State := s.issueCommand s.valOf 1

/-- The cursor-set, as Command, unless `POS` is the sentinel; then the character. -/
def putcFirst (s : State) : State :=
  if s.posOf = posSentinel then putcChar s else s.issueCommand (cursorSet s.posOf) 0

/-- After the cursor-set the character; after the character the close. -/
def putcNext (s : State) : State :=
  if s.seq.rs = 0 then putcChar s else s.goto .close

/-- One step of the sequencer in a PUTC (42_character R160). -/
def putcTick (s : State) : Move :=
  match s.seq.ph with
  | .openBus => openPhase putcFirst s
  | .preWrite => prePhase putcFirst s
  | .write => writePhase .nibble .std putcNext s
  | .waitIn => waitInPhase s
  | .close => closePhase (State.finishCommands State.respondOk) s
  | .waitTail => waitTailPhase State.respondOk s
  | .resp => respPhase s
  | .idle | .read | .raw | .blWrite | .blWait | .faulted => .refused .unreachableSeq

/-- PUTC (42_character R160). -/
def execPutc (val pos : Byte) (s : State) : Host.Outcome State Fault Refusal :=
  serve putcStart putcTick (encode (.putc val pos)) s

/-! ### PUTS (R163 to R169) -/

/-- `PEND <- NONE; SEQ.IDX <- 0; BeginSession()`. -/
def putsStart (s : State) : State :=
  { s with pend := .none, seq := { s.seq with idx := 0, ph := .openBus } }

/-- The loop head: in count mode the close once `LEN` bytes are written, else the next read. -/
def putsLoop (s : State) : State :=
  if s.lenOf ≠ 0 ∧ s.seq.idx = s.lenOf.setWidth 32 then s.goto .close else s.goto .read

/-- The cursor-set, as Command, unless `POS` is the sentinel; then the loop. -/
def putsFirst (s : State) : State :=
  if s.posOf = posSentinel then putsLoop s else s.issueCommand (cursorSet s.posOf) 0

/-- What the byte read leads to: the fault, the end at the terminator (`LEN` = 0), or the character as Data. -/
def putsByte (v : Option Byte) (s : State) : Move :=
  match v with
  | none => .halt s.raiseBufFault
  | some c => if s.lenOf = 0 ∧ c = 0 then .go (s.goto .close) else .go (s.issueCommand c 1)

/-- Whether a terminator search has written the character at index 2^32 - 1, after which its next read would revisit `BUF`
(R163's pseudocode, R169). DEDUCED (log entry 36): R169's parenthesis counts 2^32 - 1 non-zero bytes before the fault,
the pseudocode 2^32; the pseudocode, which is normative (10_state R30), is followed. -/
def State.searchExhausted (s : State) : Bool :=
  s.lenOf = 0 && s.seq.idx = 0xFFFFFFFF

/-- After the cursor-set the loop; after a character the next index and the loop. -/
def putsNext (s : State) : State :=
  if s.seq.rs = 0 then putsLoop s
  else if s.searchExhausted then s.raiseBufFault
  else putsLoop { s with seq := { s.seq with idx := s.seq.idx + 1 } }

/-- One step of the sequencer in a PUTS (42_character R163). -/
def putsTick (s : State) : Move :=
  match s.seq.ph with
  | .openBus => openPhase putsFirst s
  | .preWrite => prePhase putsFirst s
  | .write => writePhase .nibble .std putsNext s
  | .waitIn => waitInPhase s
  | .read => memRead (bufferAddr s.bufOf s.seq.idx) putsByte s
  | .close => closePhase (State.finishCommands State.respondOk) s
  | .waitTail => waitTailPhase State.respondOk s
  | .resp => respPhase s
  | .faulted => .halt s
  | .idle | .raw | .blWrite | .blWait => .refused .unreachableSeq

/-- PUTS (42_character R163). -/
def execPuts (buf : Word) (pos len : Byte) (s : State) : Host.Outcome State Fault Refusal :=
  serve putsStart putsTick (encode (.puts buf pos len)) s

end Sys2Proof.Machine
end

