-- ==== Sys2Proof/Machine/Init.lean ====
section
/-! DEFINITION. INITX and INITD (spec 41_init). -/

namespace Sys2Proof.Machine

open Sys2Proof

/-! ### INITX (R130) -/

/-- `SEQ.IDX <- 0; BeginSession()`. -/
def initxStart (s : State) : State :=
  { s with seq := { s.seq with idx := 0, ph := .openBus } }

/-- The loop head: another byte of EXPANDER_INIT_SEQ, or the close. -/
def initxLoop (s : State) : State :=
  if s.seq.idx.toNat < s.cfg.expanderInitSeq.length then s.goto .raw else s.goto .close

/-- `SEQ.IDX <- SEQ.IDX + 1` and round the loop. -/
def initxNext (s : State) : State :=
  initxLoop { s with seq := { s.seq with idx := s.seq.idx + 1 } }

/-- One step of the sequencer in an INITX (41_init R130). -/
def initxTick (s : State) : Move :=
  match s.seq.ph with
  | .openBus => openPhase initxLoop s
  | .preWrite => prePhase initxLoop s
  | .raw =>
    match s.cfg.expanderInitSeq[s.seq.idx.toNat]? with
    | some b => put b .raw initxNext s
    | none => .refused .unreachableSeq
  | .close => closePhase State.respondOk s
  | .resp => respPhase s
  | .idle | .write | .waitIn | .read | .waitTail | .blWrite | .blWait | .faulted => .refused .unreachableSeq

/-- INITX (41_init R130). -/
def execInitx (s : State) : Host.Outcome State Fault Refusal :=
  serve initxStart initxTick (encode .initx) s

/-! ### INITD (R131 to R138) -/

/-- `PEND <- NONE; SEQ.STEP <- 0; BeginSession()` (R132). -/
def initdStart (s : State) : State :=
  { s with pend := .none, seq := { s.seq with step := 0, ph := .openBus } }

/-- `SEQ.STEP <- k` and `IssueCommand` of row k; after the tenth step, the close (R132, R133). -/
def initdStep (k : BitVec 4) (s : State) : State :=
  match initRom k with
  | some row => { s with seq := { s.seq with step := k } }.issueCommand row.value 0
  | none => s.goto .close

/-- The end of a step: on to the next one (R133). -/
def initdNext (s : State) : State := initdStep (s.seq.step + 1) s

/-- `LINK <- READY; STATUS <- OK`, then the response (R132). -/
def initdDone (s : State) : State := { s with link := .ready }.respondOk

/-- One step of the sequencer in an INITD: the rows of 41_init R133. -/
def initdTick (s : State) : Move :=
  match s.seq.ph with
  | .openBus => openPhase (initdStep 1) s
  | .preWrite => prePhase (initdStep 1) s
  | .write =>
    match initRom s.seq.step with
    | some row => writePhase row.mode row.cls initdNext s
    | none => .refused .unreachableSeq
  | .waitIn => waitInPhase s
  | .close => closePhase (State.finishCommands initdDone) s
  | .waitTail => waitTailPhase initdDone s
  | .resp => respPhase s
  | .idle | .read | .raw | .blWrite | .blWait | .faulted => .refused .unreachableSeq

/-- INITD (41_init R132). -/
def execInitd (s : State) : Host.Outcome State Fault Refusal :=
  serve initdStart initdTick (encode .initd) s

end Sys2Proof.Machine
end

