-- ==== Sys2Proof/Machine/Dispatch.lean ====
section
/-! DEFINITION. One arm per constructor of Instr, each a direct call of that instruction's meaning. -/

namespace Sys2Proof.Machine

open Sys2Proof

def exec (i : Instr) (s : State) : Host.Outcome State Fault Refusal :=
  match i with
  | .initx => Sys2Proof.Machine.execInitx s
  | .initd => Sys2Proof.Machine.execInitd s
  | .putc val pos => Sys2Proof.Machine.execPutc val pos s
  | .puts buf pos len => Sys2Proof.Machine.execPuts buf pos len s
  | .setbl on => Sys2Proof.Machine.execSetbl on s
  | .blink count => Sys2Proof.Machine.execBlink count s
  | .clear => Sys2Proof.Machine.execClear s

end Sys2Proof.Machine
end

