-- ==== Sys2Proof/Machine/Sequencer.lean ====
section
/-! DEFINITION. The sequencer of a block that is busy: it goes on with the latched request, never with the host's live
inputs (spec 20_memory R63, 10_state R24, R30). -/

namespace Sys2Proof.Machine

open Sys2Proof

/-- The sequencer's step for each request. -/
def tickOf : Instr → State → Move
  | .initx => initxTick
  | .initd => initdTick
  | .putc _ _ => putcTick
  | .puts _ _ _ => putsTick
  | .setbl _ => setblTick
  | .blink _ => blinkTick
  | .clear => clearTick

/-- One step of the block while a request is in progress: one primitive of the request in the latches (10_state R30). -/
def seqTick (s : State) : Move :=
  match decode s.req0 s.req1 with
  | .ok i => tickOf i s
  | .error _ => .refused .unreachableSeq

/-- A busy block goes on until it responds, faults or waits for an agent. -/
def proceed (s : State) : Host.Outcome State Fault Refusal :=
  run seqTick maxPrimitives s

end Sys2Proof.Machine
end

