-- ==== Sys2Proof/Machine/Step.lean ====
section
/-! DEFINITION. One step of the machine (spec 60_exceptions R221, R226, R239): an IDLE block takes the next request the
host presents and serves it until its response; a busy block, whose agent owed it an answer, goes on with the latched
request; a FAULTED block has no step. Each step runs the sequencer, which performs one primitive at a time (10_state
R30; log entry 1). -/

namespace Sys2Proof.Machine

open Sys2Proof

/-- One step of the machine. -/
def step (s : State) : Host.Outcome State Fault Refusal :=
  match s.seq.ph with
  | .faulted => .fault .bufFault
  | .idle =>
    match s.takeRequest with
    | none => .next s
    | some (r, s') =>
      match decode r.w0 r.w1 with
      | .ok i => exec i s'
      | .error _ => .next (s'.rejectIllegal r)
  | .openBus | .preWrite | .write | .waitIn | .read | .close | .waitTail | .raw | .blWrite | .blWait | .resp => proceed s

/-- `s` with the request whose bits are `w` as the next one the host presents, and the block IDLE so that it accepts
it at the very next step (log entry 4). -/
def State.withFetchWord (s : State) (nbits w : Nat) : State :=
  { s.goto .idle with host := { s.host with queue := requestOfBits nbits w :: s.host.queue } }

end Sys2Proof.Machine
end

