-- ==== Sys2Proof/Safety.lean ====
section
/-! DEFINITION. What counts as a safe run, in the terms the claims use: the grammar of a trace (spec 20_memory R55,
60_exceptions R224, R227, R228), the invariant of the machine, and the event lists the operations' rules give. -/

namespace Sys2Proof.Machine

open Sys2Proof

/-! ### The grammar of a trace -/

/-- An event as 00_scope R12 has it: without the model's annotations. -/
def Event.bare : Event → Event
  | .wrote b _ r => .wrote b .port r
  | .delayed c _ => .delayed c 0
  | e => e

/-- An event without the length of a delay. -/
def Event.untimed : Event → Event
  | .delayed c _ => .delayed c 0
  | e => e

/-- Where a trace stands with respect to its sessions: outside any; inside one; after a failed call whose session must
be closed; after that close, with the error response to come; after a read that answered UNMAPPED. -/
inductive Bracket where
  | outside
  | inside
  | failed (stage : ErrStage)
  | closedFailed (stage : ErrStage)
  | dead
  deriving DecidableEq, Repr

/-- The event that may come next, and where it leads: one session at a time (10_state R28); writes and reads only inside
one (20_memory R55); after a failure the close and the error response and nothing else (60_exceptions R224, R228). -/
def Bracket.next : Bracket → Event → Option Bracket
  | .outside, .opened _ .ok => some .inside
  | .outside, .opened _ .err => some (.failed .opening)
  | .outside, .delayed _ _ => some .outside
  | .outside, .responded .ok => some .outside
  | .outside, .responded .illegalRequest => some .outside
  | .inside, .wrote _ _ .ok => some .inside
  | .inside, .wrote _ _ .err => some (.failed .writing)
  | .inside, .delayed _ _ => some .inside
  | .inside, .readAt _ (some _) => some .inside
  | .inside, .readAt _ none => some .dead
  | .inside, .closed => some .outside
  | .failed st, .closed => some (.closedFailed st)
  | .closedFailed st, .responded r => if r = st.status then some .outside else none
  | _, _ => none

/-- Where a whole trace leads from a bracket; none: it breaks the grammar. -/
def Bracket.after : Bracket → List Event → Option Bracket
  | b, [] => some b
  | b, e :: es =>
    match b.next e with
    | some b' => Bracket.after b' es
    | none => none

/-- Where a trace from reset leads. -/
def bracketOf (l : List Event) : Option Bracket := Bracket.after .outside l

/-! ### The invariant -/

/-- The phases inside a session (10_state R28), OPEN apart. -/
def Phase.inSession : Phase → Bool
  | .preWrite | .write | .waitIn | .read | .close | .raw | .blWrite | .faulted => true
  | .idle | .openBus | .waitTail | .blWait | .resp => false

/-- The phases that call the transport and await its answer. -/
def Phase.calls : Phase → Bool
  | .openBus | .preWrite | .write | .raw | .blWrite => true
  | .idle | .waitIn | .read | .close | .waitTail | .blWait | .resp | .faulted => false

/-- The positions of the sequencer that a request takes (41_init R133 and the operations' rules; 93 U14). -/
def legalPosition (i : Instr) (s : State) : Bool :=
  match i, s.seq.ph with
  | .initx, .openBus | .initx, .preWrite | .initx, .resp => s.seq.step == 0
  | .initx, .close => s.seq.step == 0 && s.pend == .none
  | .initx, .raw => s.seq.step == 0 && decide (s.seq.idx.toNat < s.cfg.expanderInitSeq.length)
  | .initd, .openBus | .initd, .preWrite => s.seq.step == 0
  | .initd, .write | .initd, .waitIn => decide (1 ≤ s.seq.step.toNat ∧ s.seq.step.toNat ≤ 10)
  | .initd, .close | .initd, .waitTail | .initd, .resp => decide (s.seq.step.toNat ≤ 10)
  | .putc _ _, .openBus | .putc _ _, .preWrite | .putc _ _, .write | .putc _ _, .waitIn | .putc _ _, .close
  | .putc _ _, .waitTail | .putc _ _, .resp => s.seq.step == 0
  | .puts _ _ _, .openBus | .puts _ _ _, .preWrite | .puts _ _ _, .write | .puts _ _ _, .waitIn | .puts _ _ _, .read
  | .puts _ _ _, .close | .puts _ _ _, .waitTail | .puts _ _ _, .resp | .puts _ _ _, .faulted => s.seq.step == 0
  | .setbl _, .openBus | .setbl _, .preWrite | .setbl _, .blWrite | .setbl _, .resp => s.seq.step == 0
  | .setbl _, .close => s.seq.step == 0 && s.pend == .none
  | .blink _, .openBus | .blink _, .preWrite | .blink _, .blWrite | .blink _, .blWait | .blink _, .resp => s.seq.step == 0
  | .blink _, .close => s.seq.step == 0 && s.pend == .none
  | .clear, .openBus | .clear, .preWrite | .clear, .write | .clear, .waitIn | .clear, .close | .clear, .waitTail
  | .clear, .resp => s.seq.step == 0
  | _, _ => false

/-- A busy block's latches hold a legal request, and its sequencer is at one of that request's positions. -/
abbrev State.positionOk (s : State) : Prop :=
  s.seq.ph ≠ .idle →
    (match decode s.req0 s.req1 with
    | .ok i => legalPosition i s
    | .error _ => false) = true

/-- An IDLE block owes nothing and keeps nothing of the model's own (10_state R20, R29; 41_init R135). -/
abbrev State.idleOk (s : State) : Prop :=
  s.seq.ph = .idle →
    s.pend = .none ∧ s.seq.step = 0 ∧ s.seq.issued = 0 ∧ s.seq.rs = 0 ∧ s.seq.abort = 0 ∧ s.seq.asked = 0

/-- `SEQ.SUB` is 0 outside the writes of a command and the close of a failed one (41_init R133). -/
abbrev State.subOk (s : State) : Prop :=
  s.seq.ph ≠ .write → s.seq.ph ≠ .close → s.seq.sub = .hiSet

/-- `SESSION` is 1 from the call of `BusOpen` to that of `BusClose` (10_state R28). -/
abbrev State.sessionOk (s : State) : Prop :=
  s.session = 1 ↔ (s.seq.ph.inSession = true ∨ (s.seq.ph = .openBus ∧ s.seq.asked = 1))

/-- A call is outstanding only in a phase that calls. -/
abbrev State.askedOk (s : State) : Prop :=
  s.seq.asked = 1 → s.seq.ph.calls = true

/-- A delay is owed only where it will still be waited: between a command and the next, or the close (40_encoder_writer
R106); an aborted request owes none (60_exceptions R224). -/
abbrev State.pendOk (s : State) : Prop :=
  (match s.seq.ph with
  | .waitIn | .waitTail => s.pend != .none
  | .close => s.seq.abort != 1 || s.pend == .none
  | .read | .faulted => true
  | .idle | .openBus | .preWrite | .write | .raw | .blWrite | .blWait | .resp => s.pend == .none) = true

/-- An abort is on its way only between the failed call and the response (60_exceptions R224), whose status it gives. -/
abbrev State.abortOk (s : State) : Prop :=
  if s.seq.abort = 1 then
    s.errStage ≠ .none ∧ (s.seq.ph = .close ∨ (s.seq.ph = .resp ∧ s.status = s.errStage.status))
  else s.seq.ph = .resp → s.status = .ok

/-- `FAULT` is 1 in FAULTED and there alone (60_exceptions R226). -/
abbrev State.faultOk (s : State) : Prop :=
  s.fault = 1 ↔ s.seq.ph = .faulted

/-- Where the trace must stand in a state. -/
def State.bracketFits (s : State) (b : Bracket) : Bool :=
  if s.seq.abort = 1 then
    b == (if s.seq.ph = .close then .failed s.errStage else .closedFailed s.errStage)
  else if s.seq.ph = .faulted then b == .inside || b == .dead
  else b == (if s.seq.ph.inSession then .inside else .outside)

/-- The trace keeps the grammar, and stands where the sequencer does. -/
abbrev State.traceOk (s : State) : Prop :=
  (bracketOf s.trace).any s.bracketFits = true

/-- The invariant of the machine: it holds at reset and every step keeps it. -/
abbrev Inv (s : State) : Prop :=
  s.cfg.wf ∧ Memory.wf s.mem ∧ s.positionOk ∧ s.idleOk ∧ s.subOk ∧ s.sessionOk ∧ s.askedOk ∧ s.pendOk ∧ s.abortOk ∧
    s.faultOk ∧ s.traceOk

/-! ### What the agents answer -/

/-- Every answer to come is OK. -/
abbrev Tape.allOk (t : Tape Answer) : Prop := (∀ a ∈ t.script, a = .ok) ∧ t.rest = some .ok

/-- The agent always answers. -/
abbrev Tape.live {α : Type} [DecidableEq α] (t : Tape α) : Prop := t.rest ≠ none

/-- The block is waiting for an agent that has not answered (60_exceptions R239). -/
def State.waiting (s : State) : Bool :=
  match s.seq.ph with
  | .openBus | .preWrite | .write | .raw | .blWrite => s.seq.asked = 1 && s.transport.draw.isNone
  | .waitIn | .waitTail | .blWait => s.timer.draw.isNone
  | .idle | .read | .close | .resp | .faulted => false

/-- The event of the call a phase makes of the transport, with its answer (30_encoding R86): the open, the prefix byte, the
byte of EXPANDER_INIT_SEQ at IDX, the command writer's byte or the SETBL byte; none in a phase that makes none. -/
def State.callEvent (s : State) (a : Answer) : Option Event :=
  match s.seq.ph with
  | .openBus => some (.opened s.cfg.devAddr a)
  | .preWrite => some (.wrote s.cfg.gpioReg .pre a)
  | .raw => s.cfg.expanderInitSeq[s.seq.idx.toNat]?.map fun b => .wrote b .raw a
  | .write => some (.wrote (writerByte s.cfg s.seq.cur s.seq.rs.toNat s.bl s.seq.sub) .port a)
  | .blWrite => some (.wrote (backlightByte s.cfg s.bl) .port a)
  | .idle | .waitIn | .read | .close | .waitTail | .blWait | .resp | .faulted => none

/-- Whether a request sets the backlight (10_state R21): SETBL and BLINK do. -/
def setsBacklight : Instr → Bool
  | .setbl _ | .blink _ => true
  | .initx | .initd | .putc _ _ | .puts _ _ _ | .clear => false

/-- Where `n` steps of the machine lead; none where one of them stops. -/
def stepsTo : Nat → State → Option State
  | 0, s => some s
  | n + 1, s =>
    match step s with
    | .next t => stepsTo n t
    | .fault _ | .refused _ => none

/-! ### The events of the operations, every answer OK, delays without their lengths -/

/-- The events of `BeginSession()` (20_memory R56). -/
def beginEvents (c : Config) : List Event :=
  .opened c.devAddr .ok :: (if c.regPrefix then [.wrote c.gpioReg .pre .ok] else [])

/-- The writes `BeginSession()` makes. -/
def beginWrites (c : Config) : Nat := if c.regPrefix then 1 else 0

/-- The events of `WriteNibble(b)` (40_encoder_writer R104). -/
def nibbleEvents (c : Config) (b : Byte) : List Event :=
  [.wrote b .port .ok, .wrote (withEnable c b) .port .ok, .wrote (withoutEnable c b) .port .ok]

/-- The events of `WriteCommand(v, mode, rs)` (40_encoder_writer R105). -/
def commandEvents (c : Config) (bl : Bit) (v : Byte) (mode : Mode) (rs : Nat) : List Event :=
  nibbleEvents c (signalEncode c v .upper rs bl) ++
    match mode with
    | .byte => []
    | .nibble => nibbleEvents c (signalEncode c v .lower rs bl)

/-- The event of a wait. -/
def delayEvent (c : DelayClass) : Event := .delayed c 0

/-- The events of one step of INITD with its trailing events (41_init R132). -/
def initdStepEvents (c : Config) (bl : Bit) (k : BitVec 4) (trail : DelayClass → List Event) : List Event :=
  match initRom k with
  | some row => commandEvents c bl row.value row.mode 0 ++ trail row.cls
  | none => []

/-- The events of INITD (41_init R132). -/
def initdEvents (c : Config) (bl : Bit) : List Event :=
  beginEvents c ++
    ([1, 2, 3, 4, 5, 6, 7, 8, 9] : List (BitVec 4)).flatMap (fun k => initdStepEvents c bl k fun d => [delayEvent d]) ++
    initdStepEvents c bl 10 (fun d => [.closed, delayEvent d]) ++ [.responded .ok]

/-- The events of an optional cursor-set (42_character R160, R163). -/
def cursorEvents (c : Config) (bl : Bit) (pos : Byte) : List Event :=
  if pos = posSentinel then [] else commandEvents c bl (cursorSet pos) .nibble 0

/-- The events of PUTC (42_character R160). -/
def putcEvents (c : Config) (bl : Bit) (val pos : Byte) : List Event :=
  beginEvents c ++ cursorEvents c bl pos ++ (if pos = posSentinel then [] else [delayEvent .std]) ++
    commandEvents c bl val .nibble 1 ++ [.closed, delayEvent .std, .responded .ok]

/-- The events of the characters of a PUTS from index `i` on (42_character R166): each is read, then the delay owed by
the command before it, if there is one, is waited, then it is written. -/
def charEvents (c : Config) (bl : Bit) (buf : Word) (owed : Bool) : Nat → List Byte → List Event
  | _, [] => []
  | i, b :: bs =>
    .readAt (bufferAddr buf (BitVec.ofNat 32 i)) (some b) :: (if owed then [delayEvent .std] else []) ++
      commandEvents c bl b .nibble 1 ++ charEvents c bl buf true (i + 1) bs

/-- The events of a PUTS that writes `bytes`; `last` is the terminator's read in terminator mode (42_character R163). -/
def putsEvents (c : Config) (bl : Bit) (buf : Word) (pos : Byte) (bytes : List Byte) (last : List Event) : List Event :=
  beginEvents c ++ cursorEvents c bl pos ++ charEvents c bl buf (pos != posSentinel) 0 bytes ++ last ++ [.closed] ++
    (if pos = posSentinel ∧ bytes = [] then [] else [delayEvent .std]) ++ [.responded .ok]

/-- The events of `SetBacklightStep(on)` (43_backlight_clear R190). -/
def backlightEvents (c : Config) (on : Bit) : List Event :=
  beginEvents c ++ [.wrote (backlightByte c on) .port .ok, .closed]

/-- The events of `n` repetitions of a BLINK (43_backlight_clear R193). -/
def blinkEvents (c : Config) : Nat → List Event
  | 0 => []
  | n + 1 =>
    backlightEvents c 1 ++ [delayEvent .blink] ++ backlightEvents c 0 ++ [delayEvent .blink] ++ blinkEvents c n

/-- The events of CLEAR (43_backlight_clear R196). -/
def clearEvents (c : Config) (bl : Bit) : List Event :=
  beginEvents c ++ commandEvents c bl 0x01 .nibble 0 ++ [.closed, delayEvent .clear, .responded .ok]

/-! ### Counts and times over a list of events -/

/-- The number of bus writes. -/
def countWrites (l : List Event) : Nat :=
  l.countP fun e => match e with | .wrote _ _ _ => true | _ => false

/-- The number of PortBytes. -/
def countPort (l : List Event) : Nat :=
  l.countP fun e => match e with | .wrote _ .port _ => true | _ => false

/-- The number of PortBytes with enable asserted. -/
def countEnable (c : Config) (l : List Event) : Nat :=
  l.countP fun e => match e with | .wrote b .port _ => b.getLsbD c.cfgE.toNat | _ => false

/-- The number of waits. -/
def countDelays (l : List Event) : Nat :=
  l.countP fun e => match e with | .delayed _ _ => true | _ => false

/-- The number of sessions opened, or tried. -/
def countOpens (l : List Event) : Nat :=
  l.countP fun e => match e with | .opened _ _ => true | _ => false

/-- The number of sessions closed. -/
def countCloses (l : List Event) : Nat :=
  l.countP fun e => match e with | .closed => true | _ => false

/-- The microseconds a list of events spent in waits. -/
def timeWaited : List Event → Nat
  | [] => 0
  | .delayed _ us :: l => us + timeWaited l
  | _ :: l => timeWaited l

/-- What a list of events leaves on the expander's pins: the last byte written OK (20_memory R58, 60_exceptions R235, 92
D30), unknown after a failed call (R224, R225; log entry 18). -/
def pinsOver (old : Option Byte) : List Event → Option Byte
  | [] => old
  | .wrote b _ .ok :: l => pinsOver (some b) l
  | .wrote _ _ .err :: l => pinsOver none l
  | .opened _ .err :: l => pinsOver none l
  | _ :: l => pinsOver old l

/-- Every wait lasted at least its class's duration (30_encoding R84). -/
def waitsLongEnough (c : Config) (l : List Event) : Prop :=
  ∀ d us, Event.delayed d us ∈ l → duration c d ≤ us

/-- Every PortByte has its unused bit 0 (30_encoding R75). -/
def unusedClear (c : Config) (l : List Event) : Prop :=
  ∀ b r, Event.wrote b .port r ∈ l → b.getLsbD c.cfgUnused.toNat = false

/-! ### What a request leaves when it completes -/

/-- Word 0 is illegal, read off its bits (30_encoding R78, R81). -/
abbrev illegalWord (w : Word) : Prop :=
  w.extractLsb' 28 4 = 0 ∨ 8 ≤ (w.extractLsb' 28 4).toNat ∨ w.extractLsb' 24 4 ≠ 0 ∨
    (w.extractLsb' 28 4 ≠ 4 ∧ w.extractLsb' 16 8 ≠ 0) ∨
    (w.extractLsb' 28 4 ≠ 3 ∧ w.extractLsb' 28 4 ≠ 4 ∧ w.extractLsb' 8 8 ≠ 0) ∨
    (w.extractLsb' 28 4 = 5 ∧ w.extractLsb' 1 7 ≠ 0) ∨
    ((w.extractLsb' 28 4 = 1 ∨ w.extractLsb' 28 4 = 2 ∨ w.extractLsb' 28 4 = 4 ∨ w.extractLsb' 28 4 = 7) ∧
      w.extractLsb' 0 8 ≠ 0)

/-- What every request that responds OK leaves: the events its rule gives, OK as its status, the count of its writes,
its words in the latches, an IDLE block; and the configuration, the error record, `FAULT` and the host's queue as they
were. -/
abbrev Completed (s t : State) (r : Request) (writes : Nat) (events : List Event) : Prop :=
  t.trace.map Event.untimed = s.trace.map Event.untimed ++ events ∧ t.seq.ph = .idle ∧ t.status = .ok ∧
    t.errWidx = BitVec.ofNat 64 writes ∧ t.req0 = r.w0 ∧ t.req1 = (if requestWords r.w0 = 2 then r.w1 else s.req1) ∧
    t.cfg = s.cfg ∧ t.errOp = s.errOp ∧ t.errStage = s.errStage ∧ t.errStep = s.errStep ∧ t.fault = s.fault ∧
    t.host.queue = s.host.queue

/-- The byte of the buffer memory at index `i` of a PUTS (42_character R163). -/
def State.bufferByte (s : State) (buf : Word) (i : Nat) : Option Byte :=
  Memory.read s.mem (bufferAddr buf (BitVec.ofNat 32 i)).toNat

/-- The writes of an optional cursor-set. -/
def cursorWrites (pos : Byte) : Nat := if pos = posSentinel then 0 else 6

/-- Where the command writer is after a byte that does not end the command (30_encoding R87). -/
def Sub.following : Sub → Sub
  | .hiSet => .hiEh
  | .hiEh => .hiEl
  | .hiEl => .loSet
  | .loSet => .loEh
  | .loEh => .loEl
  | .loEl => .hiSet

/-- Whether a position is the last of a command (41_init R133). -/
def Sub.endsCommand : Sub → Mode → Bool
  | .hiEl, .byte => true
  | .loEl, _ => true
  | _, _ => false

end Sys2Proof.Machine
end

