-- ==== Sys2Proof/Certificates/Slice0/Obligations.lean ====
section
/-! DEFINITION. The statements for the provers. Each docstring names the rules of the spec it formalises. A statement
about `exec` or `step` answering a next state holds whatever the agents answer, unless it says what they answer. -/

open Sys2Proof Sys2Proof.Machine

/-! ### Encodings -/

/-- 30_encoding R78, R79, R82: decoding the words of any request gives it back, every operand at every value. -/
def Obligations.DecodeEncodeRoundTrip : Prop :=
  ∀ i : Instr, decode (encode i).w0 (encode i).w1 = .ok i

/-- 30_encoding R78 to R81: a legal word has one meaning; the words of the request it decodes to are the words read. -/
def Obligations.EncodeOfDecodedWords : Prop :=
  ∀ (w0 w1 : Word) (i : Instr), decode w0 w1 = .ok i →
    (encode i).w0 = w0 ∧ (requestWords w0 = 2 → (encode i).w1 = w1)

/-- 30_encoding R81: the illegal words are exactly those it lists; one is answered ILLEGAL_REQUEST with no other effect
(the latch, which R221 gives every acceptance, apart: log entry 14); the all-zero word is illegal. -/
def Obligations.IllegalWordsAreRefused : Prop :=
  (∀ w0 w1 : Word, (∃ e, decode w0 w1 = .error e) ↔ illegalWord w0) ∧
  (∀ (s : State) (r : Request) (q : List Request), s.seq.ph = .idle → s.host.queue = r :: q → illegalWord r.w0 →
    step s = .next { s with
      host := { s.host with queue := q }
      req0 := r.w0
      req1 := if requestWords r.w0 = 2 then r.w1 else s.req1
      status := .illegalRequest
      trace := s.trace ++ [.responded .illegalRequest] }) ∧
  illegalWord 0

/-- 30_encoding R79, R89: the words of the assembler's table, written out. -/
def Obligations.WrittenOutWordsDecode : Prop :=
  decode 0x10000000 0 = .ok .initx ∧ decode 0x20000000 0 = .ok .initd ∧
  decode 0x30000041 0 = .ok (.putc 0x41 0x00) ∧ decode 0x40034000 0x1000 = .ok (.puts 0x1000 0x40 0x03) ∧
  decode 0x50000001 0 = .ok (.setbl 1) ∧ decode 0x600000FF 0 = .ok (.blink 0xFF) ∧ decode 0x70000000 0 = .ok .clear

/-- 30_encoding R80: the number of words is told from `OP` alone, and only a PUTS reads the second one. -/
def Obligations.RequestLengthFromOpcode : Prop :=
  (∀ i : Instr, requestWords (encode i).w0 = (match i with | .puts _ _ _ => 2 | _ => 1)) ∧
  ∀ w0 w1 w1' : Word, requestWords w0 = 1 → decode w0 w1 = decode w0 w1'

/-- 30_encoding R90: the pseudo-requests and their expansions. -/
def Obligations.PseudoRequestsExpand : Prop :=
  (∀ val : AsmNum, assemble (.putcHere val) = assemble (.putc val (.hex 0xFF))) ∧
  (∀ buf pos : AsmNum, assemble (.putsz buf pos) = assemble (.puts buf pos (.dec 0))) ∧
  (∀ buf : AsmNum, assemble (.putszHere buf) = assemble (.puts buf (.hex 0xFF) (.dec 0))) ∧
  assemble .blon = assemble (.setbl (.dec 1)) ∧ assemble .bloff = assemble (.setbl (.dec 0))

/-! ### The step -/

/-- 60_exceptions R221, 30_encoding R80: an IDLE block to which the host presents a legal request serves exactly that
request, and the presentation is taken from the host's queue. -/
def Obligations.StepServesDecodedRequest : Prop :=
  (∀ (s : State) (r : Request) (q : List Request) (i : Instr), s.seq.ph = .idle → s.host.queue = r :: q →
    decode r.w0 r.w1 = .ok i → step s = exec i { s with host := { s.host with queue := q } }) ∧
  ∀ (s : State) (nbits w : Nat) (i : Instr), s.seq.ph = .idle → decodeTableWord nbits w = some i →
    step (s.withFetchWord nbits w) = exec i s

/-- 60_exceptions R238, 10_state R30: an IDLE block to which nothing is presented keeps all its state. -/
def Obligations.IdleBlockKeepsState : Prop :=
  ∀ s : State, s.seq.ph = .idle → s.host.queue = [] → step s = .next s

/-- 60_exceptions R221, 10_state R24: a busy block accepts nothing, its queue and latches stay as they are, and a request
presented to it waits. -/
def Obligations.BusyBlockAcceptsNothing : Prop :=
  ∀ s : State, s.seq.ph ≠ .idle → s.seq.ph ≠ .faulted →
    (∀ i : Instr, exec i s = .next s) ∧
    ∀ t : State, step s = .next t → t.host.queue = s.host.queue ∧ t.req0 = s.req0 ∧ t.req1 = s.req1

/-- 20_memory R63: a request is latched whole at acceptance, and a change of the host's inputs while the block is busy
changes nothing but those inputs. -/
def Obligations.HostInputsIgnoredWhileBusy : Prop :=
  (∀ (s : State) (i : Instr) (t : State), s.seq.ph = .idle → exec i s = .next t →
    t.req0 = (encode i).w0 ∧ (requestWords (encode i).w0 = 2 → t.req1 = (encode i).w1)) ∧
  ∀ (s t : State) (q : List Request), s.seq.ph ≠ .idle → step s = .next t →
    step { s with host := { s.host with queue := q } } = .next { t with host := { t.host with queue := q } }

/-! ### Construction and reset -/

/-- 70_reset_and_hazards R250, R251: the state after reset, with any construction parameters; the trace is empty, the
expander's pins are not driven by `BL`, and the block is IDLE and waits. (`REQ0` and `REQ1`, which R250 leaves unspecified, are not constrained.) -/
def Obligations.ResetValues : Prop :=
  State.reset = State.constructed Config.default ∧
  ∀ c : Config,
    let s := State.constructed c
    s.cfg = c ∧ s.bl = 0 ∧ s.seq.ph = .idle ∧ s.seq.step = 0 ∧ s.seq.sub.code = 0 ∧ s.seq.idx = 0 ∧ s.seq.cnt = 0 ∧
    s.seq.half = 0 ∧ s.seq.cur = 0 ∧ s.session = 0 ∧ s.pend = .none ∧ s.status = .ok ∧ s.errOp = 0 ∧
    s.errStage = .none ∧ s.errStep = 0 ∧ s.errWidx = 0 ∧ s.link = .unknown ∧ s.fault = 0 ∧ s.trace = [] ∧
    s.pins = none ∧ s.busy = false ∧ step s = .next s

/-- 00_scope R8: a block is constructed exactly from a configuration whose seven positions are pairwise distinct and whose
EXPANDER_INIT_SEQ has at most 255 bytes (that a longer one is refused is the model's reading of R7, log entry 20); then CFG_UNUSED is the one position that none of them names. -/
def Obligations.ConstructionNeedsDistinctPositions : Prop :=
  ∀ c : Config,
    ((State.construct c).isSome = true ↔
      ([c.cfgBl, c.cfgD7, c.cfgD6, c.cfgD5, c.cfgD4, c.cfgE, c.cfgRs].Nodup ∧ c.expanderInitSeq.length ≤ 255)) ∧
    (∀ s, State.construct c = some s → s = State.constructed c) ∧
    (c.wf → ∀ k : Pos, k ∉ [c.cfgBl, c.cfgD7, c.cfgD6, c.cfgD5, c.cfgD4, c.cfgE, c.cfgRs] ↔ k = c.cfgUnused)

/-! ### The Signal Encoder and the command writer -/

/-- 40_encoder_writer R100: each bit of the nibble, the coerced register-select and the backlight bit stand at their
configured positions. -/
def Obligations.EncoderPlacesEveryBit : Prop :=
  ∀ (c : Config) (v : Byte) (half : Half) (rs : Nat) (bl : Bit), c.wf →
    let p := signalEncode c v half rs bl
    let low := match half with | .upper => 4 | .lower => 0
    p.getLsbD c.cfgBl.toNat = bl.getLsbD 0 ∧
    p.getLsbD c.cfgD7.toNat = v.getLsbD (low + 3) ∧ p.getLsbD c.cfgD6.toNat = v.getLsbD (low + 2) ∧
    p.getLsbD c.cfgD5.toNat = v.getLsbD (low + 1) ∧ p.getLsbD c.cfgD4.toNat = v.getLsbD low ∧
    p.getLsbD c.cfgRs.toNat = decide (rs ≠ 0)

/-- 40_encoder_writer R103: every byte the encoder returns has `CFG_E` and `CFG_UNUSED` 0 and `CFG_BL` the backlight bit;
only the command writer, at its two enable positions, sets `CFG_E`. -/
def Obligations.EnableOnlyFromCommandWriter : Prop :=
  ∀ (c : Config) (v : Byte) (rs : Nat) (bl : Bit), c.wf →
    (∀ half : Half,
      (signalEncode c v half rs bl).getLsbD c.cfgE.toNat = false ∧
      (signalEncode c v half rs bl).getLsbD c.cfgUnused.toNat = false ∧
      (signalEncode c v half rs bl).getLsbD c.cfgBl.toNat = bl.getLsbD 0) ∧
    (∀ sub : Sub, (writerByte c v rs bl sub).getLsbD c.cfgE.toNat = decide (sub = .hiEh ∨ sub = .loEh)) ∧
    (backlightByte c bl).getLsbD c.cfgE.toNat = false

/-- 30_encoding R71: the default layout, and the byte it gives: (BL << 7) | (n << 3) | (rs << 1). -/
def Obligations.DefaultLayoutByte : Prop :=
  Config.default.positions = [7, 6, 5, 4, 3, 2, 1] ∧ Config.default.cfgUnused = 0 ∧
  Config.default.positions.map oneHot = [0x80, 0x40, 0x20, 0x10, 0x08, 0x04, 0x02] ∧
  ∀ (v : Byte) (half : Half) (rs bl : Bit),
    signalEncode Config.default v half rs.toNat bl =
      (bl.setWidth 8 <<< 7) ||| ((nibbleOf v half).setWidth 8 <<< 3) ||| (rs.setWidth 8 <<< 1)

/-- 40_encoder_writer R108 (with R104, R105): where no write fails, a BYTE command makes exactly three bus writes and a
NIBBLE command exactly six; each nibble is its byte with `CFG_E` 0, that byte with `CFG_E` 1, and that byte again. Then
the settle class is owed and the operation goes on (`atEnd`); nothing else has changed. -/
def Obligations.CommandWritesOnePulsePerNibble : Prop :=
  ∀ (mode : Mode) (cls : DelayClass) (atEnd : State → State) (s : State), s.cfg.wf → s.seq.sub = .hiSet →
    s.seq.asked = 0 → s.transport.allOk →
    let n := match mode with | .byte => 3 | .nibble => 6
    let hi := signalEncode s.cfg s.seq.cur .upper s.seq.rs.toNat s.bl
    let lo := signalEncode s.cfg s.seq.cur .lower s.seq.rs.toNat s.bl
    let pulse := fun b : Byte => [Event.wrote b .port .ok, .wrote (b ||| oneHot s.cfg.cfgE) .port .ok, .wrote b .port .ok]
    ∃ t : Tape Answer, t.allOk ∧
      run (writePhase mode cls atEnd) n s = .next (atEnd { s with
        trace := s.trace ++ pulse hi ++ (match mode with | .byte => [] | .nibble => pulse lo)
        errWidx := s.errWidx + BitVec.ofNat 64 n
        pins := some (match mode with | .byte => hi | .nibble => lo)
        pend := cls
        transport := t }) ∧
      hi.getLsbD s.cfg.cfgE.toNat = false ∧ lo.getLsbD s.cfg.cfgE.toNat = false ∧
      (oneHot s.cfg.cfgE).getLsbD s.cfg.cfgE.toNat = true

/-! ### Completion of every request, every call answered OK -/

/-- 41_init R130: INITX. -/
def Obligations.InitxCompletes : Prop :=
  ∀ s : State, s.seq.ph = .idle → s.transport.allOk → s.cfg.expanderInitSeq.length ≤ 255 →
    ∃ t : State, exec .initx s = .next t ∧
      Completed s t (encode .initx) (beginWrites s.cfg + s.cfg.expanderInitSeq.length)
        (beginEvents s.cfg ++ s.cfg.expanderInitSeq.map (fun b => .wrote b .raw .ok) ++ [.closed, .responded .ok]) ∧
      t.session = 0 ∧ t.bl = s.bl ∧ t.link = s.link ∧ t.pend = s.pend ∧ t.mem = s.mem

/-- 41_init R132: INITD, the ten steps of R131 with their waits, and `LINK` READY. -/
def Obligations.InitdCompletes : Prop :=
  ∀ s : State, s.seq.ph = .idle → s.transport.allOk → s.timer.live →
    ∃ t : State, exec .initd s = .next t ∧
      Completed s t (encode .initd) (beginWrites s.cfg + 48) (initdEvents s.cfg s.bl) ∧
      t.session = 0 ∧ t.bl = s.bl ∧ t.link = .ready ∧ t.pend = .none ∧ t.mem = s.mem

/-- 42_character R160: PUTC, at any position, the sentinel included. -/
def Obligations.PutcCompletes : Prop :=
  ∀ (s : State) (val pos : Byte), s.seq.ph = .idle → s.transport.allOk → s.timer.live →
    ∃ t : State, exec (.putc val pos) s = .next t ∧
      Completed s t (encode (.putc val pos)) (beginWrites s.cfg + cursorWrites pos + 6) (putcEvents s.cfg s.bl val pos) ∧
      t.session = 0 ∧ t.bl = s.bl ∧ t.link = s.link ∧ t.pend = .none ∧ t.mem = s.mem

/-- 42_character R163, R165: PUTS in count mode writes exactly `LEN` bytes, whatever their values. -/
def Obligations.PutsCountModeCompletes : Prop :=
  ∀ (s : State) (buf : Word) (pos len : Byte) (bytes : List Byte), s.seq.ph = .idle → s.transport.allOk → s.timer.live →
    s.host.edits = [] → len ≠ 0 → bytes.length = len.toNat →
    (∀ i b, bytes[i]? = some b → s.bufferByte buf i = some b) →
    ∃ t : State, exec (.puts buf pos len) s = .next t ∧
      Completed s t (encode (.puts buf pos len)) (beginWrites s.cfg + cursorWrites pos + 6 * len.toNat)
        (putsEvents s.cfg s.bl buf pos bytes []) ∧
      t.session = 0 ∧ t.bl = s.bl ∧ t.link = s.link ∧ t.pend = .none ∧ t.mem = s.mem

/-- 42_character R163, R164, R167: PUTS in terminator mode writes the bytes up to the zero byte, exclusive, and reads
that one too; with nothing to write it still opens and closes a session. A
string of 2^32 - 1 characters is among them (log entry 36). -/
def Obligations.PutsTerminatorModeCompletes : Prop :=
  ∀ (s : State) (buf : Word) (pos : Byte) (bytes : List Byte), s.seq.ph = .idle → s.transport.allOk → s.timer.live →
    s.host.edits = [] → bytes.length < 2 ^ 32 →
    (∀ i b, bytes[i]? = some b → s.bufferByte buf i = some b ∧ b ≠ 0) → s.bufferByte buf bytes.length = some 0 →
    ∃ t : State, exec (.puts buf pos 0) s = .next t ∧
      Completed s t (encode (.puts buf pos 0)) (beginWrites s.cfg + cursorWrites pos + 6 * bytes.length)
        (putsEvents s.cfg s.bl buf pos bytes
          [.readAt (bufferAddr buf (BitVec.ofNat 32 bytes.length)) (some 0)]) ∧
      t.session = 0 ∧ t.bl = s.bl ∧ t.link = s.link ∧ t.pend = .none ∧ t.mem = s.mem

/-- 43_backlight_clear R190, R191: SETBL, one unpulsed byte with the new `BL` at `CFG_BL`. -/
def Obligations.SetblCompletes : Prop :=
  ∀ (s : State) (on : Bit), s.seq.ph = .idle → s.transport.allOk →
    ∃ t : State, exec (.setbl on) s = .next t ∧
      Completed s t (encode (.setbl on)) (beginWrites s.cfg + 1) (backlightEvents s.cfg on ++ [.responded .ok]) ∧
      t.session = 0 ∧ t.bl = on ∧ t.link = s.link ∧ t.pend = s.pend ∧ t.mem = s.mem

/-- 43_backlight_clear R193, R194: BLINK, `COUNT` repetitions; after at least one, `BL` is 0; after none, it is as it
was. -/
def Obligations.BlinkCompletes : Prop :=
  ∀ (s : State) (count : Byte), s.seq.ph = .idle → s.transport.allOk → s.timer.live →
    ∃ t : State, exec (.blink count) s = .next t ∧
      Completed s t (encode (.blink count)) (count.toNat * (2 * (beginWrites s.cfg + 1)))
        (blinkEvents s.cfg count.toNat ++ [.responded .ok]) ∧
      t.session = (if count = 0 then s.session else 0) ∧ t.bl = (if count = 0 then s.bl else 0) ∧ t.link = s.link ∧
      t.pend = s.pend ∧ t.mem = s.mem

/-- 43_backlight_clear R196: CLEAR. -/
def Obligations.ClearCompletes : Prop :=
  ∀ s : State, s.seq.ph = .idle → s.transport.allOk → s.timer.live →
    ∃ t : State, exec .clear s = .next t ∧
      Completed s t (encode .clear) (beginWrites s.cfg + 6) (clearEvents s.cfg s.bl) ∧
      t.session = 0 ∧ t.bl = s.bl ∧ t.link = s.link ∧ t.pend = .none ∧ t.mem = s.mem

/-- 43_backlight_clear R194: `BLINK 0` makes no bus access and no wait and responds OK at once. -/
def Obligations.BlinkZeroOnlyResponds : Prop :=
  ∀ s : State, s.seq.ph = .idle →
    exec (.blink 0) s = .next { s with
      req0 := 0x60000000
      errWidx := 0
      seq := Seq.zero
      status := .ok
      trace := s.trace ++ [.responded .ok] }

/-! ### INITD in detail -/

/-- 41_init R133: the rows of the state machine, as steps of a block whose latches hold INITD; `k` is `SEQ.STEP`. The
value of a command is in `SEQ.CUR` from its first write on, not while the delay owed before it is waited (40_encoder_writer
R105, R106). The fields `rs`, `abort`, `asked` and `issued` are the model's own (log entries 9, 10, 11, 16). -/
def Obligations.InitdTransitionTable : Prop :=
  (∀ s : State, s.seq.ph = .idle →
    let u := initdStart (s.accept (encode .initd))
    u.pend = .none ∧ u.errWidx = 0 ∧ u.trace = s.trace ∧ (u.seq.ph, u.seq.step, u.seq.sub) = (.openBus, 0, .hiSet) ∧
      decode u.req0 u.req1 = .ok .initd) ∧
  (∀ s : State, decode s.req0 s.req1 = .ok .initd → s.seq.ph = .close → s.seq.abort = 1 →
    ∃ u, seqTick s = .go u ∧ u.session = 0 ∧ u.trace = s.trace ++ [.closed] ∧ u.link = .indeterminate ∧
      u.status = s.errStage.status ∧ u.pend = s.pend ∧
      (u.seq.ph, u.seq.step, u.seq.sub) = (.resp, s.seq.step, .hiSet)) ∧
  (∀ s : State, decode s.req0 s.req1 = .ok .initd → s.seq.ph = .resp →
    ∃ u, seqTick s = .halt u ∧ u.trace = s.trace ++ [.responded s.status] ∧
      (u.seq.ph, u.seq.step, u.seq.sub) = (.idle, 0, .hiSet)) ∧
  ∀ s : State, decode s.req0 s.req1 = .ok .initd → s.seq.abort = 0 → s.seq.asked = 0 →
    (∀ t, s.transport.draw = some (.err, t) →
      (s.seq.ph = .openBus ∨ s.seq.ph = .preWrite ∨ (s.seq.ph = .write ∧ 1 ≤ s.seq.step.toNat ∧ s.seq.step.toNat ≤ 10)) →
      ∃ u failed, seqTick s = .go u ∧ s.callEvent .err = some failed ∧ u.trace = s.trace ++ [failed] ∧
        u.session = (if s.seq.ph = .openBus then 1 else s.session) ∧
        u.errWidx = (if s.seq.ph = .openBus then s.errWidx else s.errWidx + 1) ∧
        (u.seq.ph, u.seq.step, u.seq.sub) = (.close, s.seq.step, s.seq.sub) ∧ u.seq.abort = 1 ∧ u.pend = .none ∧
        u.errOp = 2 ∧ u.errStep = s.seq.step ∧ u.errStage = (if s.seq.ph = .openBus then .opening else .writing)) ∧
    (∀ t, s.transport.draw = some (.ok, t) → s.seq.ph = .openBus → s.pend = .none →
      ∃ u, seqTick s = .go u ∧ u.session = 1 ∧ u.trace = s.trace ++ [.opened s.cfg.devAddr .ok] ∧
        (s.cfg.regPrefix = true → (u.seq.ph, u.seq.step, u.seq.sub) = (.preWrite, s.seq.step, s.seq.sub)) ∧
        (s.cfg.regPrefix = false →
          (u.seq.ph, u.seq.step, u.seq.sub, u.seq.cur, u.seq.rs) = (.write, 1, .hiSet, 0x30, 0))) ∧
    (∀ t, s.transport.draw = some (.ok, t) → s.seq.ph = .preWrite → s.pend = .none →
      ∃ u, seqTick s = .go u ∧ u.errWidx = s.errWidx + 1 ∧ u.trace = s.trace ++ [.wrote s.cfg.gpioReg .pre .ok] ∧
        (u.seq.ph, u.seq.step, u.seq.sub, u.seq.cur, u.seq.rs) = (.write, 1, .hiSet, 0x30, 0)) ∧
    (∀ t row, s.transport.draw = some (.ok, t) → s.seq.ph = .write → initRom s.seq.step = some row →
      s.seq.cur = row.value → s.seq.rs = 0 → (row.mode = .byte → s.seq.sub = .hiSet ∨ s.seq.sub = .hiEh ∨ s.seq.sub = .hiEl) →
      ∃ u, seqTick s = .go u ∧ u.errWidx = s.errWidx + 1 ∧
        u.trace = s.trace ++ [.wrote (writerByte s.cfg row.value 0 s.bl s.seq.sub) .port .ok] ∧
        (s.seq.sub.endsCommand row.mode = false →
          (u.seq.ph, u.seq.step, u.seq.sub, u.pend) = (.write, s.seq.step, s.seq.sub.following, s.pend)) ∧
        (s.seq.sub.endsCommand row.mode = true → s.seq.step.toNat < 10 →
          (u.seq.ph, u.seq.step, u.seq.sub, u.pend) = (.waitIn, s.seq.step + 1, .hiSet, row.cls) ∧
            u.seq.cur = s.seq.cur ∧ ∀ row', initRom (s.seq.step + 1) = some row' → u.seq.issued = row'.value) ∧
        (s.seq.sub.endsCommand row.mode = true → s.seq.step = 10 →
          (u.seq.ph, u.seq.step, u.seq.sub, u.pend) = (.close, 10, .hiSet, .std))) ∧
    (∀ late t, s.timer.draw = some (late, t) → s.seq.ph = .waitIn → s.pend ≠ .none →
      ∃ u, seqTick s = .go u ∧ u.trace = s.trace ++ [.delayed s.pend (duration s.cfg s.pend + late)] ∧ u.pend = .none ∧
        (u.seq.ph, u.seq.step, u.seq.sub) = (.write, s.seq.step, s.seq.sub) ∧ u.seq.cur = s.seq.issued) ∧
    (s.seq.ph = .close →
      ∃ u, seqTick s = .go u ∧ u.session = 0 ∧ u.trace = s.trace ++ [.closed] ∧
        (u.seq.ph, u.seq.step, u.seq.sub) = (if s.pend = .none then .resp else .waitTail, s.seq.step, .hiSet)) ∧
    (∀ late t, s.timer.draw = some (late, t) → s.seq.ph = .waitTail → s.pend ≠ .none →
      ∃ u, seqTick s = .go u ∧ u.trace = s.trace ++ [.delayed s.pend (duration s.cfg s.pend + late)] ∧ u.pend = .none ∧
        u.link = .ready ∧ u.status = .ok ∧ (u.seq.ph, u.seq.step, u.seq.sub) = (.resp, s.seq.step, s.seq.sub))

/-- 41_init R138: the counts of a successful INITD, in all and of each step. -/
def Obligations.InitdCounts : Prop :=
  (∀ s : State, s.seq.ph = .idle → s.transport.allOk → s.timer.live → s.cfg.wf →
    ∃ (t : State) (before after : List Event), exec .initd s = .next t ∧
      t.trace = s.trace ++ before ++ .closed :: after ∧
      (before ++ .closed :: after).map Event.untimed = initdEvents s.cfg s.bl ∧
      countPort (before ++ after) = 48 ∧ countWrites (before ++ after) = 48 + (if s.cfg.regPrefix then 1 else 0) ∧
      countDelays before = 9 ∧ countDelays after = 1 ∧ countOpens (before ++ after) = 1 ∧
      countCloses (before ++ after) = 0 ∧ countEnable s.cfg (before ++ after) = 16) ∧
  ∀ (c : Config) (bl : Bit) (k : BitVec 4), c.wf → 1 ≤ k.toNat → k.toNat ≤ 10 →
    let events := initdStepEvents c bl k (fun _ => [])
    countPort events = (if k.toNat ≤ 4 then 3 else 6) ∧ countEnable c events = (if k.toNat ≤ 4 then 1 else 2)

/-- 70_reset_and_hazards R262: the minimum time of a successful INITD, counting only its waits, as R262's sum of the
durations. R262's own figure for the sum, 8400, is not what the durations of 30_encoding R84 add up to, which is 8300: the
second clause is the model's reading, log entry 35. -/
def Obligations.InitdMinimumTime : Prop :=
  (∀ s t : State, s.seq.ph = .idle → exec .initd s = .next t → t.seq.ph = .idle → t.status = .ok →
    ∃ events : List Event, t.trace = s.trace ++ events ∧
      s.cfg.tPor1Us + 2 * s.cfg.tShortUs + 5 * s.cfg.tStdUs + s.cfg.tClearUs + s.cfg.tHomeUs ≤ timeWaited events) ∧
  ∀ c : Config, c.tPor1Us = 4100 → c.tShortUs = 100 → c.tClearUs = 2000 → c.tHomeUs = 2000 →
    c.tPor1Us + 2 * c.tShortUs + 5 * c.tStdUs + c.tClearUs + c.tHomeUs = 8300 + 5 * c.tStdUs

/-! ### Characters -/

/-- 42_character R161: the cursor-set command value, for every `POS` but the sentinel; after that command
PUTC issues the character as Data; `POS` = 0x80 sends the same
command as 0x00, and 0xC0 the same as 0x40. -/
def Obligations.CursorSetValue : Prop :=
  (∀ s : State, s.posOf ≠ 0xFF →
    putcFirst s = s.issueCommand (0x80 ||| s.posOf) 0 ∧ putsFirst s = s.issueCommand (0x80 ||| s.posOf) 0) ∧
  (∀ s : State, s.seq.rs = 0 → putcNext s = s.issueCommand s.valOf 1) ∧
  (∀ pos : Byte, 0x80 ≤ pos.toNat → cursorSet pos = pos) ∧ cursorSet 0x80 = cursorSet 0x00 ∧
  cursorSet 0xC0 = cursorSet 0x40

/-- 20_memory R64, R66: byte `i` of a PUTS is read at (BUF + i) mod 2^32, from the memory as the host has left it when
that read is made. -/
def Obligations.BufferReadIsLazyAndWraps : Prop :=
  (∀ (buf : Word) (i : Nat), (bufferAddr buf (BitVec.ofNat 32 i)).toNat = (buf.toNat + i) % 2 ^ 32) ∧
  ∀ (s : State) (buf : Word) (pos len : Byte), decode s.req0 s.req1 = .ok (.puts buf pos len) → s.seq.ph = .read →
    seqTick s = putsByte (Memory.read s.hostEdits.mem (bufferAddr buf s.seq.idx).toNat)
      (s.hostEdits.log (.readAt (bufferAddr buf s.seq.idx)
        (Memory.read s.hostEdits.mem (bufferAddr buf s.seq.idx).toNat)))

/-! ### Errors, the fault, the stall -/

/-- 60_exceptions R223, R224, R225, R228: from any state the machine can be in that awaits the transport's answer, an
ERR is recorded, the owed delay is dropped, and only the close and the error response follow; the expander's pins are
unknown. The model's readings, not the rules': that the pins are unknown after a failed open too (log entry 18), and that a
write whose call was made in an earlier step, still unanswered, is already counted (`asked`, log entry 11). -/
def Obligations.FailedCallAbortsRequest : Prop :=
  ∀ (s : State) (tape : Tape Answer), Inv s → s.seq.ph.calls = true → s.transport.draw = some (.err, tape) →
    ∃ (t : State) (failed : Event), step s = .next t ∧
      s.callEvent .err = some failed ∧
      t.trace = s.trace ++ [failed, .closed, .responded t.status] ∧
      t.status = (if s.seq.ph = .openBus then .busErrorOpen else .busErrorWrite) ∧
      t.errOp = s.opOf ∧ t.errStage = (if s.seq.ph = .openBus then .opening else .writing) ∧
      t.errStep = s.seq.step ∧
      t.errWidx = (if s.seq.ph = .openBus ∨ s.seq.asked = 1 then s.errWidx else s.errWidx + 1) ∧
      t.pend = .none ∧ t.session = 0 ∧ t.link = .indeterminate ∧ t.seq.ph = .idle ∧ t.seq.step = 0 ∧
      t.bl = s.bl ∧ t.fault = s.fault ∧ t.mem = s.mem ∧ t.timer = s.timer ∧ t.transport = tape ∧ t.cfg = s.cfg ∧
      t.pins = none

/-- 60_exceptions R220, R223: whichever request an IDLE block accepts, but a `BLINK 0`, a failed first `BusOpen` is all
it does; `BL` keeps what SETBL or BLINK had written to it (43_backlight_clear R192). That the expander's pins are unknown
after it is the model's reading of R224 (log entry 18). -/
def Obligations.FailedOpenEndsRequest : Prop :=
  ∀ (s : State) (i : Instr) (tape : Tape Answer), s.seq.ph = .idle → i ≠ .blink 0 →
    s.transport.draw = some (.err, tape) →
    ∃ t : State, exec i s = .next t ∧
      t.trace = s.trace ++ [.opened s.cfg.devAddr .err, .closed, .responded .busErrorOpen] ∧
      t.status = .busErrorOpen ∧ t.errOp = opcode i ∧ t.errStage = .opening ∧ t.errStep = 0 ∧ t.errWidx = 0 ∧
      t.pend = .none ∧ t.session = 0 ∧ t.link = .indeterminate ∧ t.seq.ph = .idle ∧
      t.bl = (match i with | .setbl on => on | .blink _ => 1 | _ => s.bl) ∧ t.fault = s.fault ∧ t.mem = s.mem ∧
      t.timer = s.timer ∧ t.transport = tape ∧ t.cfg = s.cfg ∧ t.pins = none

/-- 60_exceptions R226: a read that answers UNMAPPED sets `FAULT` and goes to FAULTED, with no close, no wait and no
response; from FAULTED the block has no step at all; `FAULT` is never cleared. -/
def Obligations.BufferFaultStopsBlock : Prop :=
  (∀ (s : State) (buf : Word) (pos len : Byte), decode s.req0 s.req1 = .ok (.puts buf pos len) → s.seq.ph = .read →
    s.host.edits = [] → Memory.read s.mem (bufferAddr buf s.seq.idx).toNat = none →
    step s = .next { s with
      fault := 1
      seq := { s.seq with ph := .faulted }
      trace := s.trace ++ [.readAt (bufferAddr buf s.seq.idx) none] }) ∧
  (∀ s : State, s.seq.ph = .faulted → step s = .fault .bufFault ∧ ∀ i : Instr, exec i s = .fault .bufFault) ∧
  ∀ s t : State, s.fault = 1 → step s = .next t → t.fault = 1

/-- 42_character R169: a terminator search that has written the character at the last index does not revisit `BUF`: the
block is FAULTED with its last write. That the last index is 2^32 - 1, as R163's pseudocode has it, where R169's parenthesis
counts 2^32 - 1 bytes, is the model's reading (log entry 36). -/
def Obligations.ExhaustedSearchFaults : Prop :=
  ∀ (s : State) (buf : Word) (pos : Byte) (tape : Tape Answer), decode s.req0 s.req1 = .ok (.puts buf pos 0) →
    s.seq.ph = .write → s.seq.sub = .loEl → s.seq.rs = 1 → s.seq.idx = 0xFFFFFFFF →
    s.transport.draw = some (.ok, tape) →
    ∃ t : State, step s = .next t ∧ t.fault = 1 ∧ t.seq.ph = .faulted ∧
      ∃ b, t.trace = s.trace ++ [.wrote b .port .ok]

/-- 60_exceptions R239: a call the transport never answers, or a wait the timer never ends, leaves the block in that
phase for ever, with `BUSY` = 1, and no response is ever given. That a step of such a block answers a next state which
changes nothing, and that the trace gets no event, is the model's reading (log entries 12, 34): 93 U8 says that the block
has no step. -/
def Obligations.UnansweredCallStallsBlock : Prop :=
  (∀ s : State, Inv s → s.seq.ph.calls = true → s.transport.draw = none →
    ∃ t : State, step s = .next t ∧ t.seq.ph = s.seq.ph ∧ t.busy = true ∧ t.trace = s.trace ∧ step t = .next t) ∧
  ∀ s : State, Inv s → (s.seq.ph = .waitIn ∨ s.seq.ph = .waitTail ∨ s.seq.ph = .blWait) → s.timer.draw = none →
    step s = .next s ∧ s.busy = true

/-! ### Invariants and whole-machine rules -/

/-- 10_state R28, R29; 20_memory R55; 60_exceptions R224, R226, R228; 93 U14: every step keeps the invariant: canonical
memory, a legal sequencer position, `SESSION`, `PEND` and `FAULT` where they belong, and a trace whose sessions are
bracketed and whose failures are followed by their close and their response alone. -/
def Obligations.StepKeepsInvariant : Prop :=
  ∀ s t : State, Inv s → step s = .next t → Inv t

/-- 70_reset_and_hazards R250: the invariant holds at reset, and of a block constructed from any well-formed
configuration. -/
def Obligations.ResetMeetsInvariant : Prop :=
  Inv State.reset ∧ ∀ c : Config, c.wf → Inv (State.constructed c)

/-- 93 U14 (30_encoding R86, R87): a state that meets the invariant has a meaning: no step from it is refused. -/
def Obligations.InvariantStatesAreNeverRefused : Prop :=
  ∀ s : State, Inv s → ∀ r : Refusal, step s ≠ .refused r

/-- 60_exceptions R220, 10_state R30: a request ends in its response, in the buffer fault, or waits for an agent that
has not answered, and in no other way. -/
def Obligations.RequestRespondsFaultsOrWaits : Prop :=
  ∀ (s : State) (i : Instr), Inv s → s.seq.ph = .idle →
    ∃ t : State, exec i s = .next t ∧ (t.seq.ph = .idle ∨ t.seq.ph = .faulted ∨ t.waiting = true)

/-- 10_state R22: no step writes the configuration. -/
def Obligations.ConfigurationNeverWritten : Prop :=
  ∀ s t : State, step s = .next t → t.cfg = s.cfg

/-- 43_backlight_clear R192: `BL` is written before the session opens and never restored, whatever fails, and every later
PortByte carries it: of this request, of the next one, and of every step after it, however many, while the host presents
requests that do not set it again. -/
def Obligations.BacklightNeverRolledBack : Prop :=
  ∀ (s t : State) (on : Bit), s.seq.ph = .idle → exec (.setbl on) s = .next t → t.bl = on ∧
    (s.cfg.wf → ∀ events, t.trace = s.trace ++ events →
      ∀ b r, Event.wrote b .port r ∈ events → b.getLsbD s.cfg.cfgBl.toNat = on.getLsbD 0) ∧
    (∀ (n : Nat) (u : State), stepsTo n t = some u →
      (∀ r ∈ s.host.queue, ∀ j, decode r.w0 r.w1 = .ok j → setsBacklight j = false) →
      u.bl = on ∧ (s.cfg.wf → ∀ events, u.trace = s.trace ++ events →
        ∀ b r, Event.wrote b .port r ∈ events → b.getLsbD s.cfg.cfgBl.toNat = on.getLsbD 0)) ∧
    (s.cfg.wf → ∀ (j : Instr) (u : State) (events : List Event), (∀ on, j ≠ .setbl on) → (∀ n, j ≠ .blink n) →
      exec j t = .next u → u.trace = t.trace ++ events →
      ∀ b r, Event.wrote b .port r ∈ events → b.getLsbD s.cfg.cfgBl.toNat = on.getLsbD 0)

/-- 10_state R21, 41_init R137, 40_encoder_writer R109: a request other than SETBL and BLINK leaves `BL` as it is, and
every PortByte it writes carries it. -/
def Obligations.OtherRequestsCarryBacklight : Prop :=
  ∀ (s t : State) (i : Instr), (∀ on, i ≠ .setbl on) → (∀ n, i ≠ .blink n) → exec i s = .next t → t.bl = s.bl ∧
    (s.cfg.wf → ∀ events, t.trace = s.trace ++ events →
      ∀ b r, Event.wrote b .port r ∈ events → b.getLsbD s.cfg.cfgBl.toNat = s.bl.getLsbD 0)

/-- 40_encoder_writer R109: at every single step of the sequencer, whatever the request, a PortByte written carries the
value of `BL` at that write. -/
def Obligations.PortByteCarriesBacklightAtItsWrite : Prop :=
  ∀ s t : State, s.cfg.wf → (seqTick s = .go t ∨ seqTick s = .halt t) →
    ∃ events, t.trace = s.trace ++ events ∧
      ∀ b r, Event.wrote b .port r ∈ events → b.getLsbD s.cfg.cfgBl.toNat = s.bl.getLsbD 0

/-- 30_encoding R75: the unused bit is 0 in every PortByte of the trace, and every step keeps it so. -/
def Obligations.UnusedBitStaysZero : Prop :=
  ∀ s t : State, s.cfg.wf → unusedClear s.cfg s.trace → step s = .next t → unusedClear t.cfg t.trace

/-- 30_encoding R84, 60_exceptions R234: every wait of the trace lasted at least its class's duration, and every step
keeps it so. -/
def Obligations.WaitsLastTheirDuration : Prop :=
  ∀ s t : State, waitsLongEnough s.cfg s.trace → step s = .next t → waitsLongEnough t.cfg t.trace

/-- 00_scope R12, 20_memory R58: a step only adds events to the trace. -/
def Obligations.TraceOnlyGrows : Prop :=
  ∀ s t : State, step s = .next t → ∃ events, t.trace = s.trace ++ events

/-- 20_memory R58; 60_exceptions R235, R224, R225; 92 D30: what a step adds to the trace says what the expander's pins are:
the last byte written with answer OK, unknown after a failed call (after a failed open: log entry 18), and otherwise as
they were. -/
def Obligations.PinsFollowBytesWritten : Prop :=
  ∀ s t : State, step s = .next t →
    ∃ events, t.trace = s.trace ++ events ∧ t.pins = pinsOver s.pins events

/-- 10_state R27: `LINK` becomes READY when an INITD responds OK, INDETERMINATE when a request responds with a BusError,
and no other request changes it. -/
def Obligations.LinkRecordsOutcome : Prop :=
  ∀ (s t : State) (i : Instr), s.seq.ph = .idle → exec i s = .next t → t.seq.ph = .idle →
    (t.status = .ok ∨ t.status = .busErrorOpen ∨ t.status = .busErrorWrite) ∧
    (t.status ≠ .ok → t.link = .indeterminate) ∧
    (t.status = .ok → t.link = (if i = .initd then .ready else s.link))

/-- 10_state R27: no request reads `LINK`: with another value there, the run is the same in everything else. -/
def Obligations.LinkIsNeverRead : Prop :=
  ∀ (s t : State) (i : Instr) (l : Link), exec i s = .next t →
    ∃ t' : State, exec i { s with link := l } = .next t' ∧ { t' with link := t.link } = t

/-! ### Frames -/

/-- 10_state R26: `ERR_OP`, `ERR_STAGE` and `ERR_STEP` are written only by an abort: a request that responds OK leaves
them, and one that responds with a BusError leaves its own record. -/
def Obligations.ErrorRecordOnlyFromAbort : Prop :=
  ∀ (s t : State) (i : Instr), s.seq.ph = .idle → exec i s = .next t → t.seq.ph = .idle →
    (t.status = .ok → t.errOp = s.errOp ∧ t.errStage = s.errStage ∧ t.errStep = s.errStep) ∧
    (t.status ≠ .ok → t.errOp = opcode i ∧ t.errStage.status = t.status ∧ t.errStage ≠ .none ∧
      (i ≠ .initd → t.errStep = 0))

/-- 20_memory R53: no request writes the buffer memory: for every address, reading it after gives what reading it before
gave, but for the changes the host itself makes before a read of a PUTS. -/
def Obligations.NoRequestWritesBuffer : Prop :=
  (∀ (s t : State) (i : Instr), (∀ buf pos len, i ≠ .puts buf pos len) → exec i s = .next t →
    (∀ a, Memory.read t.mem a = Memory.read s.mem a) ∧ t.host = s.host) ∧
  ∀ s t : State, s.host.edits = [] → step s = .next t →
    (∀ a, Memory.read t.mem a = Memory.read s.mem a) ∧ t.host.edits = []

/-- 10_state R35 (the table of what each request writes): the frame of every request an IDLE block accepts. `SEQ`, the
program counter, may change; of the latches, `REQ1` only by PUTS; `FAULT` only by PUTS; the timer is asked only by
requests that wait; `PEND` is owed only by requests that write LCD commands. -/
def Obligations.RequestFrame : Prop :=
  ∀ (s t : State) (i : Instr), s.seq.ph = .idle → exec i s = .next t →
    t.cfg = s.cfg ∧ t.host.queue = s.host.queue ∧ t.req0 = (encode i).w0 ∧
    t.req1 = (match i with | .puts buf _ _ => buf | _ => s.req1) ∧
    ((∀ buf pos len, i ≠ .puts buf pos len) → t.fault = s.fault ∧ t.mem = s.mem ∧ t.host = s.host) ∧
    ((i = .initx ∨ ∃ on, i = .setbl on) → t.timer = s.timer) ∧
    ((i = .initx ∨ (∃ on, i = .setbl on) ∨ ∃ n, i = .blink n) → t.pend = s.pend ∨ t.pend = .none) ∧
    ((∀ on, i ≠ .setbl on) → (∀ n, i ≠ .blink n) → t.bl = s.bl) ∧
    (i ≠ .initd → t.link = s.link ∨ t.link = .indeterminate)
end

