-- ==== Sys2Proof/Laws/Encoding.lean ====
section
/-! SUPPORT. The fields of a packed request word (spec 30_encoding R78): each lemma reads one field back. -/

namespace Sys2Proof

/-- The word whose fields are `op`, 0, `a`, `b`, `c` (30_encoding R78), by place value. -/
def PlaceValue (w : Word) (op : BitVec 4) (a b c : Byte) : Prop :=
  w.toNat = op.toNat * 268435456 + a.toNat * 65536 + b.toNat * 256 + c.toNat

theorem packWord_placeValue (op : BitVec 4) (a b c : Byte) : PlaceValue (packWord op a b c) op a b c := by
  unfold PlaceValue packWord
  rw [BitVec.toNat_ofNat]
  omega

section
variable {w : Word} {op : BitVec 4} {a b c : Byte}

theorem PlaceValue.op_eq (h : PlaceValue w op a b c) : fieldOp w = op := by
  unfold PlaceValue at h
  apply BitVec.eq_of_toNat_eq
  simp only [fieldOp, BitVec.extractLsb'_toNat, Nat.shiftRight_eq_div_pow, Nat.reducePow]
  omega

theorem PlaceValue.rsv_eq (h : PlaceValue w op a b c) : fieldRsv w = 0 := by
  unfold PlaceValue at h
  apply BitVec.eq_of_toNat_eq
  simp only [fieldRsv, BitVec.extractLsb'_toNat, Nat.shiftRight_eq_div_pow, Nat.reducePow, BitVec.ofNat_eq_ofNat,
    BitVec.toNat_ofNat]
  omega

theorem PlaceValue.a_eq (h : PlaceValue w op a b c) : fieldA w = a := by
  unfold PlaceValue at h
  apply BitVec.eq_of_toNat_eq
  simp only [fieldA, BitVec.extractLsb'_toNat, Nat.shiftRight_eq_div_pow, Nat.reducePow]
  omega

theorem PlaceValue.b_eq (h : PlaceValue w op a b c) : fieldB w = b := by
  unfold PlaceValue at h
  apply BitVec.eq_of_toNat_eq
  simp only [fieldB, BitVec.extractLsb'_toNat, Nat.shiftRight_eq_div_pow, Nat.reducePow]
  omega

theorem PlaceValue.c_eq (h : PlaceValue w op a b c) : fieldC w = c := by
  unfold PlaceValue at h
  apply BitVec.eq_of_toNat_eq
  simp only [fieldC, BitVec.extractLsb'_toNat, Nat.shiftRight_eq_div_pow, Nat.reducePow]
  omega

theorem PlaceValue.cHigh_eq (h : PlaceValue w op a b c) (hc : c.toNat ≤ 1) : fieldCHigh w = 0 := by
  unfold PlaceValue at h
  apply BitVec.eq_of_toNat_eq
  simp only [fieldCHigh, BitVec.extractLsb'_toNat, Nat.shiftRight_eq_div_pow, Nat.reducePow, BitVec.ofNat_eq_ofNat,
    BitVec.toNat_ofNat]
  omega

theorem PlaceValue.on_eq (h : PlaceValue w op a b c) (on : Bit) (hc : c.toNat = on.toNat) : fieldOn w = on := by
  unfold PlaceValue at h
  apply BitVec.eq_of_toNat_eq
  simp only [fieldOn, BitVec.extractLsb'_toNat, Nat.shiftRight_eq_div_pow, Nat.reducePow]
  omega

end

theorem toNat_bit (on : Bit) : (on.setWidth 8 : Byte).toNat = on.toNat := by
  rw [BitVec.toNat_setWidth]
  omega

@[simp] theorem fieldOp_packWord (op : BitVec 4) (a b c : Byte) : fieldOp (packWord op a b c) = op :=
  PlaceValue.op_eq (packWord_placeValue op a b c)

@[simp] theorem fieldRsv_packWord (op : BitVec 4) (a b c : Byte) : fieldRsv (packWord op a b c) = 0 :=
  PlaceValue.rsv_eq (packWord_placeValue op a b c)

@[simp] theorem fieldA_packWord (op : BitVec 4) (a b c : Byte) : fieldA (packWord op a b c) = a :=
  PlaceValue.a_eq (packWord_placeValue op a b c)

@[simp] theorem fieldB_packWord (op : BitVec 4) (a b c : Byte) : fieldB (packWord op a b c) = b :=
  PlaceValue.b_eq (packWord_placeValue op a b c)

@[simp] theorem fieldC_packWord (op : BitVec 4) (a b c : Byte) : fieldC (packWord op a b c) = c :=
  PlaceValue.c_eq (packWord_placeValue op a b c)

/-- `C[7:1]` of a word whose `C` is one bit. -/
@[simp] theorem fieldCHigh_packWord_bit (op : BitVec 4) (a b : Byte) (on : Bit) :
    fieldCHigh (packWord op a b (on.setWidth 8)) = 0 :=
  PlaceValue.cHigh_eq (packWord_placeValue op a b _) (by rw [toNat_bit]; omega)

/-- `C[0]` of a word whose `C` is one bit. -/
@[simp] theorem fieldOn_packWord_bit (op : BitVec 4) (a b : Byte) (on : Bit) :
    fieldOn (packWord op a b (on.setWidth 8)) = on :=
  PlaceValue.on_eq (packWord_placeValue op a b _) on (toNat_bit on)

end Sys2Proof
end

