-- ==== Sys2Proof/Laws/Memory.lean ====
section
/-! SUPPORT. The laws of the buffer memory: a read after a write or an erase, and that every memory operation keeps the
canonical form. -/

namespace Sys2Proof.Machine

open Sys2Proof

theorem Memory.read_write_same (m : List Host.Cell) (a : Nat) (v : Byte) :
    Memory.read (Memory.write m a v) a = some v := by
  induction m with
  | nil => simp [Memory.write, Memory.read]
  | cons c m ih =>
    obtain ⟨k, w⟩ := c
    by_cases h₁ : a < k
    · simp [Memory.write, Memory.read, h₁]
    · by_cases h₂ : a = k
      · simp [Memory.write, Memory.read, h₂]
      · have h₃ : k ≠ a := fun h => h₂ h.symm
        simp [Memory.write, Memory.read, h₁, h₂, h₃, ih]

theorem Memory.read_write_other (m : List Host.Cell) (a b : Nat) (v : Byte) (hab : b ≠ a) :
    Memory.read (Memory.write m a v) b = Memory.read m b := by
  have hba : a ≠ b := fun h => hab h.symm
  induction m with
  | nil => simp [Memory.write, Memory.read, hba]
  | cons c m ih =>
    obtain ⟨k, w⟩ := c
    by_cases h₁ : a < k
    · simp [Memory.write, Memory.read, h₁, hba]
    · by_cases h₂ : a = k
      · subst h₂
        simp [Memory.write, Memory.read, hba]
      · simp [Memory.write, Memory.read, h₁, h₂, ih]

theorem Memory.read_erase_other (m : List Host.Cell) (a b : Nat) (hab : b ≠ a) :
    Memory.read (Memory.erase m a) b = Memory.read m b := by
  have hba : a ≠ b := fun h => hab h.symm
  induction m with
  | nil => rfl
  | cons c m ih =>
    obtain ⟨k, w⟩ := c
    by_cases h : k = a
    · subst h
      simp [Memory.erase, Memory.read, hba]
    · simp [Memory.erase, Memory.read, h, ih]

/-- An address no cell has answers UNMAPPED. -/
theorem Memory.read_none (m : List Host.Cell) (a : Nat) (h : ∀ c ∈ m, c.1 ≠ a) : Memory.read m a = none := by
  induction m with
  | nil => rfl
  | cons c m ih =>
    obtain ⟨k, w⟩ := c
    have hk : k ≠ a := h (k, w) (by simp)
    simp only [Memory.read, hk, if_false]
    exact ih fun c hc => h c (by simp [hc])

theorem Memory.read_erase_same (m : List Host.Cell) (a : Nat) (hm : Memory.wf m) :
    Memory.read (Memory.erase m a) a = none := by
  induction m with
  | nil => rfl
  | cons c m ih =>
    obtain ⟨k, w⟩ := c
    have hp := List.pairwise_cons.mp hm.1
    by_cases h : k = a
    · subst h
      simp only [Memory.erase, if_true]
      exact Memory.read_none m k fun c hc => (hp.1 c hc).ne'
    · simp only [Memory.erase, Memory.read, h, if_false]
      exact ih ⟨hp.2, fun c hc => hm.2 c (by simp [hc])⟩

/-- A cell of a written memory is the written one or an old one. -/
theorem Memory.mem_write {m : List Host.Cell} {a : Nat} {v : Byte} {c : Host.Cell} (h : c ∈ Memory.write m a v) :
    c = (a, v) ∨ c ∈ m := by
  induction m with
  | nil => simpa [Memory.write] using h
  | cons d m ih =>
    obtain ⟨k, w⟩ := d
    unfold Memory.write at h
    split at h
    · simpa using h
    · split at h
      · rcases List.mem_cons.mp h with h | h
        · exact .inl h
        · exact .inr (by simp [h])
      · rcases List.mem_cons.mp h with h | h
        · exact .inr (by simp [h])
        · exact (ih h).imp id fun h => by simp [h]

/-- A cell of a memory after an erase is an old one. -/
theorem Memory.mem_erase {m : List Host.Cell} {a : Nat} {c : Host.Cell} (h : c ∈ Memory.erase m a) : c ∈ m := by
  induction m with
  | nil => simp [Memory.erase] at h
  | cons d m ih =>
    obtain ⟨k, w⟩ := d
    unfold Memory.erase at h
    split at h
    · simp [h]
    · rcases List.mem_cons.mp h with h | h
      · simp [h]
      · simp [ih h]

theorem Memory.write_wf (m : List Host.Cell) (a : Nat) (v : Byte) (hm : Memory.wf m) (ha : a < 2 ^ 32) :
    Memory.wf (Memory.write m a v) := by
  refine ⟨?_, fun c hc => (Memory.mem_write hc).elim (fun h => h ▸ ha) (hm.2 c)⟩
  have hp := hm.1
  clear hm
  induction m with
  | nil => simp [Memory.write]
  | cons d m ih =>
    obtain ⟨k, w⟩ := d
    have hd := List.pairwise_cons.mp hp
    unfold Memory.write
    split
    · next h =>
      refine List.pairwise_cons.mpr ⟨fun c hc => ?_, hp⟩
      rcases List.mem_cons.mp hc with hc | hc
      · exact hc ▸ h
      · exact Nat.lt_trans h (hd.1 c hc)
    · split
      · next h => exact List.pairwise_cons.mpr ⟨fun c hc => h ▸ hd.1 c hc, hd.2⟩
      · next h₁ h₂ =>
        refine List.pairwise_cons.mpr ⟨fun c hc => ?_, ih hd.2⟩
        rcases Memory.mem_write hc with hc | hc
        · subst hc
          exact Nat.lt_of_le_of_ne (Nat.le_of_not_lt h₁) fun h => h₂ h.symm
        · exact hd.1 c hc

theorem Memory.erase_wf (m : List Host.Cell) (a : Nat) (hm : Memory.wf m) : Memory.wf (Memory.erase m a) := by
  refine ⟨?_, fun c hc => hm.2 c (Memory.mem_erase hc)⟩
  have hp := hm.1
  clear hm
  induction m with
  | nil => simp [Memory.erase]
  | cons d m ih =>
    obtain ⟨k, w⟩ := d
    have hd := List.pairwise_cons.mp hp
    unfold Memory.erase
    split
    · exact hd.2
    · exact List.pairwise_cons.mpr ⟨fun c hc => hd.1 c (Memory.mem_erase hc), ih hd.2⟩

theorem Memory.edit_wf (m : List Host.Cell) (e : Edit) (hm : Memory.wf m) : Memory.wf (Memory.edit m e) := by
  unfold Memory.edit
  split
  · exact Memory.write_wf m _ _ hm e.addr.isLt
  · exact Memory.erase_wf m _ hm

theorem Memory.edits_wf (es : List Edit) (m : List Host.Cell) (hm : Memory.wf m) : Memory.wf (Memory.edits m es) := by
  induction es generalizing m with
  | nil => exact hm
  | cons e es ih => exact ih _ (Memory.edit_wf m e hm)

end Sys2Proof.Machine
end

