-- ==== Sys2Proof/Laws/State.lean ====
section
/-! SUPPORT. One lemma per field per named update of the state, each true by rfl, so that no proof unfolds a record
update. -/

namespace Sys2Proof.Machine

open Sys2Proof

/-! ### State.goto -/

@[simp] theorem State.goto_cfg (p : Phase) (s : State) :
    (State.goto s p).cfg = s.cfg := rfl
@[simp] theorem State.goto_bl (p : Phase) (s : State) :
    (State.goto s p).bl = s.bl := rfl
@[simp] theorem State.goto_req0 (p : Phase) (s : State) :
    (State.goto s p).req0 = s.req0 := rfl
@[simp] theorem State.goto_req1 (p : Phase) (s : State) :
    (State.goto s p).req1 = s.req1 := rfl
@[simp] theorem State.goto_seq (p : Phase) (s : State) :
    (State.goto s p).seq = { s.seq with ph := p } := rfl
@[simp] theorem State.goto_session (p : Phase) (s : State) :
    (State.goto s p).session = s.session := rfl
@[simp] theorem State.goto_pend (p : Phase) (s : State) :
    (State.goto s p).pend = s.pend := rfl
@[simp] theorem State.goto_status (p : Phase) (s : State) :
    (State.goto s p).status = s.status := rfl
@[simp] theorem State.goto_errOp (p : Phase) (s : State) :
    (State.goto s p).errOp = s.errOp := rfl
@[simp] theorem State.goto_errStage (p : Phase) (s : State) :
    (State.goto s p).errStage = s.errStage := rfl
@[simp] theorem State.goto_errStep (p : Phase) (s : State) :
    (State.goto s p).errStep = s.errStep := rfl
@[simp] theorem State.goto_errWidx (p : Phase) (s : State) :
    (State.goto s p).errWidx = s.errWidx := rfl
@[simp] theorem State.goto_link (p : Phase) (s : State) :
    (State.goto s p).link = s.link := rfl
@[simp] theorem State.goto_fault (p : Phase) (s : State) :
    (State.goto s p).fault = s.fault := rfl
@[simp] theorem State.goto_mem (p : Phase) (s : State) :
    (State.goto s p).mem = s.mem := rfl
@[simp] theorem State.goto_transport (p : Phase) (s : State) :
    (State.goto s p).transport = s.transport := rfl
@[simp] theorem State.goto_timer (p : Phase) (s : State) :
    (State.goto s p).timer = s.timer := rfl
@[simp] theorem State.goto_host (p : Phase) (s : State) :
    (State.goto s p).host = s.host := rfl
@[simp] theorem State.goto_pins (p : Phase) (s : State) :
    (State.goto s p).pins = s.pins := rfl
@[simp] theorem State.goto_trace (p : Phase) (s : State) :
    (State.goto s p).trace = s.trace := rfl

/-! ### State.log -/

@[simp] theorem State.log_cfg (e : Event) (s : State) :
    (State.log s e).cfg = s.cfg := rfl
@[simp] theorem State.log_bl (e : Event) (s : State) :
    (State.log s e).bl = s.bl := rfl
@[simp] theorem State.log_req0 (e : Event) (s : State) :
    (State.log s e).req0 = s.req0 := rfl
@[simp] theorem State.log_req1 (e : Event) (s : State) :
    (State.log s e).req1 = s.req1 := rfl
@[simp] theorem State.log_seq (e : Event) (s : State) :
    (State.log s e).seq = s.seq := rfl
@[simp] theorem State.log_session (e : Event) (s : State) :
    (State.log s e).session = s.session := rfl
@[simp] theorem State.log_pend (e : Event) (s : State) :
    (State.log s e).pend = s.pend := rfl
@[simp] theorem State.log_status (e : Event) (s : State) :
    (State.log s e).status = s.status := rfl
@[simp] theorem State.log_errOp (e : Event) (s : State) :
    (State.log s e).errOp = s.errOp := rfl
@[simp] theorem State.log_errStage (e : Event) (s : State) :
    (State.log s e).errStage = s.errStage := rfl
@[simp] theorem State.log_errStep (e : Event) (s : State) :
    (State.log s e).errStep = s.errStep := rfl
@[simp] theorem State.log_errWidx (e : Event) (s : State) :
    (State.log s e).errWidx = s.errWidx := rfl
@[simp] theorem State.log_link (e : Event) (s : State) :
    (State.log s e).link = s.link := rfl
@[simp] theorem State.log_fault (e : Event) (s : State) :
    (State.log s e).fault = s.fault := rfl
@[simp] theorem State.log_mem (e : Event) (s : State) :
    (State.log s e).mem = s.mem := rfl
@[simp] theorem State.log_transport (e : Event) (s : State) :
    (State.log s e).transport = s.transport := rfl
@[simp] theorem State.log_timer (e : Event) (s : State) :
    (State.log s e).timer = s.timer := rfl
@[simp] theorem State.log_host (e : Event) (s : State) :
    (State.log s e).host = s.host := rfl
@[simp] theorem State.log_pins (e : Event) (s : State) :
    (State.log s e).pins = s.pins := rfl
@[simp] theorem State.log_trace (e : Event) (s : State) :
    (State.log s e).trace = s.trace ++ [e] := rfl

/-! ### State.enterSession -/

@[simp] theorem State.enterSession_cfg (s : State) :
    (State.enterSession s).cfg = s.cfg := rfl
@[simp] theorem State.enterSession_bl (s : State) :
    (State.enterSession s).bl = s.bl := rfl
@[simp] theorem State.enterSession_req0 (s : State) :
    (State.enterSession s).req0 = s.req0 := rfl
@[simp] theorem State.enterSession_req1 (s : State) :
    (State.enterSession s).req1 = s.req1 := rfl
@[simp] theorem State.enterSession_seq (s : State) :
    (State.enterSession s).seq = s.seq := rfl
@[simp] theorem State.enterSession_session (s : State) :
    (State.enterSession s).session = 1 := rfl
@[simp] theorem State.enterSession_pend (s : State) :
    (State.enterSession s).pend = s.pend := rfl
@[simp] theorem State.enterSession_status (s : State) :
    (State.enterSession s).status = s.status := rfl
@[simp] theorem State.enterSession_errOp (s : State) :
    (State.enterSession s).errOp = s.errOp := rfl
@[simp] theorem State.enterSession_errStage (s : State) :
    (State.enterSession s).errStage = s.errStage := rfl
@[simp] theorem State.enterSession_errStep (s : State) :
    (State.enterSession s).errStep = s.errStep := rfl
@[simp] theorem State.enterSession_errWidx (s : State) :
    (State.enterSession s).errWidx = s.errWidx := rfl
@[simp] theorem State.enterSession_link (s : State) :
    (State.enterSession s).link = s.link := rfl
@[simp] theorem State.enterSession_fault (s : State) :
    (State.enterSession s).fault = s.fault := rfl
@[simp] theorem State.enterSession_mem (s : State) :
    (State.enterSession s).mem = s.mem := rfl
@[simp] theorem State.enterSession_transport (s : State) :
    (State.enterSession s).transport = s.transport := rfl
@[simp] theorem State.enterSession_timer (s : State) :
    (State.enterSession s).timer = s.timer := rfl
@[simp] theorem State.enterSession_host (s : State) :
    (State.enterSession s).host = s.host := rfl
@[simp] theorem State.enterSession_pins (s : State) :
    (State.enterSession s).pins = s.pins := rfl
@[simp] theorem State.enterSession_trace (s : State) :
    (State.enterSession s).trace = s.trace := rfl

/-! ### State.countWrite -/

@[simp] theorem State.countWrite_cfg (s : State) :
    (State.countWrite s).cfg = s.cfg := rfl
@[simp] theorem State.countWrite_bl (s : State) :
    (State.countWrite s).bl = s.bl := rfl
@[simp] theorem State.countWrite_req0 (s : State) :
    (State.countWrite s).req0 = s.req0 := rfl
@[simp] theorem State.countWrite_req1 (s : State) :
    (State.countWrite s).req1 = s.req1 := rfl
@[simp] theorem State.countWrite_seq (s : State) :
    (State.countWrite s).seq = s.seq := rfl
@[simp] theorem State.countWrite_session (s : State) :
    (State.countWrite s).session = s.session := rfl
@[simp] theorem State.countWrite_pend (s : State) :
    (State.countWrite s).pend = s.pend := rfl
@[simp] theorem State.countWrite_status (s : State) :
    (State.countWrite s).status = s.status := rfl
@[simp] theorem State.countWrite_errOp (s : State) :
    (State.countWrite s).errOp = s.errOp := rfl
@[simp] theorem State.countWrite_errStage (s : State) :
    (State.countWrite s).errStage = s.errStage := rfl
@[simp] theorem State.countWrite_errStep (s : State) :
    (State.countWrite s).errStep = s.errStep := rfl
@[simp] theorem State.countWrite_errWidx (s : State) :
    (State.countWrite s).errWidx = s.errWidx + 1 := rfl
@[simp] theorem State.countWrite_link (s : State) :
    (State.countWrite s).link = s.link := rfl
@[simp] theorem State.countWrite_fault (s : State) :
    (State.countWrite s).fault = s.fault := rfl
@[simp] theorem State.countWrite_mem (s : State) :
    (State.countWrite s).mem = s.mem := rfl
@[simp] theorem State.countWrite_transport (s : State) :
    (State.countWrite s).transport = s.transport := rfl
@[simp] theorem State.countWrite_timer (s : State) :
    (State.countWrite s).timer = s.timer := rfl
@[simp] theorem State.countWrite_host (s : State) :
    (State.countWrite s).host = s.host := rfl
@[simp] theorem State.countWrite_pins (s : State) :
    (State.countWrite s).pins = s.pins := rfl
@[simp] theorem State.countWrite_trace (s : State) :
    (State.countWrite s).trace = s.trace := rfl

/-! ### State.answered -/

@[simp] theorem State.answered_cfg (t : Tape Answer) (s : State) :
    (State.answered t s).cfg = s.cfg := rfl
@[simp] theorem State.answered_bl (t : Tape Answer) (s : State) :
    (State.answered t s).bl = s.bl := rfl
@[simp] theorem State.answered_req0 (t : Tape Answer) (s : State) :
    (State.answered t s).req0 = s.req0 := rfl
@[simp] theorem State.answered_req1 (t : Tape Answer) (s : State) :
    (State.answered t s).req1 = s.req1 := rfl
@[simp] theorem State.answered_seq (t : Tape Answer) (s : State) :
    (State.answered t s).seq = { s.seq with asked := 0 } := rfl
@[simp] theorem State.answered_session (t : Tape Answer) (s : State) :
    (State.answered t s).session = s.session := rfl
@[simp] theorem State.answered_pend (t : Tape Answer) (s : State) :
    (State.answered t s).pend = s.pend := rfl
@[simp] theorem State.answered_status (t : Tape Answer) (s : State) :
    (State.answered t s).status = s.status := rfl
@[simp] theorem State.answered_errOp (t : Tape Answer) (s : State) :
    (State.answered t s).errOp = s.errOp := rfl
@[simp] theorem State.answered_errStage (t : Tape Answer) (s : State) :
    (State.answered t s).errStage = s.errStage := rfl
@[simp] theorem State.answered_errStep (t : Tape Answer) (s : State) :
    (State.answered t s).errStep = s.errStep := rfl
@[simp] theorem State.answered_errWidx (t : Tape Answer) (s : State) :
    (State.answered t s).errWidx = s.errWidx := rfl
@[simp] theorem State.answered_link (t : Tape Answer) (s : State) :
    (State.answered t s).link = s.link := rfl
@[simp] theorem State.answered_fault (t : Tape Answer) (s : State) :
    (State.answered t s).fault = s.fault := rfl
@[simp] theorem State.answered_mem (t : Tape Answer) (s : State) :
    (State.answered t s).mem = s.mem := rfl
@[simp] theorem State.answered_transport (t : Tape Answer) (s : State) :
    (State.answered t s).transport = t := rfl
@[simp] theorem State.answered_timer (t : Tape Answer) (s : State) :
    (State.answered t s).timer = s.timer := rfl
@[simp] theorem State.answered_host (t : Tape Answer) (s : State) :
    (State.answered t s).host = s.host := rfl
@[simp] theorem State.answered_pins (t : Tape Answer) (s : State) :
    (State.answered t s).pins = s.pins := rfl
@[simp] theorem State.answered_trace (t : Tape Answer) (s : State) :
    (State.answered t s).trace = s.trace := rfl

/-! ### State.raiseBusError -/

@[simp] theorem State.raiseBusError_cfg (g : ErrStage) (s : State) :
    (State.raiseBusError g s).cfg = s.cfg := rfl
@[simp] theorem State.raiseBusError_bl (g : ErrStage) (s : State) :
    (State.raiseBusError g s).bl = s.bl := rfl
@[simp] theorem State.raiseBusError_req0 (g : ErrStage) (s : State) :
    (State.raiseBusError g s).req0 = s.req0 := rfl
@[simp] theorem State.raiseBusError_req1 (g : ErrStage) (s : State) :
    (State.raiseBusError g s).req1 = s.req1 := rfl
@[simp] theorem State.raiseBusError_seq (g : ErrStage) (s : State) :
    (State.raiseBusError g s).seq = { s.seq with ph := .close, abort := 1 } := rfl
@[simp] theorem State.raiseBusError_session (g : ErrStage) (s : State) :
    (State.raiseBusError g s).session = s.session := rfl
@[simp] theorem State.raiseBusError_pend (g : ErrStage) (s : State) :
    (State.raiseBusError g s).pend = .none := rfl
@[simp] theorem State.raiseBusError_status (g : ErrStage) (s : State) :
    (State.raiseBusError g s).status = s.status := rfl
@[simp] theorem State.raiseBusError_errOp (g : ErrStage) (s : State) :
    (State.raiseBusError g s).errOp = s.opOf := rfl
@[simp] theorem State.raiseBusError_errStage (g : ErrStage) (s : State) :
    (State.raiseBusError g s).errStage = g := rfl
@[simp] theorem State.raiseBusError_errStep (g : ErrStage) (s : State) :
    (State.raiseBusError g s).errStep = s.seq.step := rfl
@[simp] theorem State.raiseBusError_errWidx (g : ErrStage) (s : State) :
    (State.raiseBusError g s).errWidx = s.errWidx := rfl
@[simp] theorem State.raiseBusError_link (g : ErrStage) (s : State) :
    (State.raiseBusError g s).link = s.link := rfl
@[simp] theorem State.raiseBusError_fault (g : ErrStage) (s : State) :
    (State.raiseBusError g s).fault = s.fault := rfl
@[simp] theorem State.raiseBusError_mem (g : ErrStage) (s : State) :
    (State.raiseBusError g s).mem = s.mem := rfl
@[simp] theorem State.raiseBusError_transport (g : ErrStage) (s : State) :
    (State.raiseBusError g s).transport = s.transport := rfl
@[simp] theorem State.raiseBusError_timer (g : ErrStage) (s : State) :
    (State.raiseBusError g s).timer = s.timer := rfl
@[simp] theorem State.raiseBusError_host (g : ErrStage) (s : State) :
    (State.raiseBusError g s).host = s.host := rfl
@[simp] theorem State.raiseBusError_pins (g : ErrStage) (s : State) :
    (State.raiseBusError g s).pins = none := rfl
@[simp] theorem State.raiseBusError_trace (g : ErrStage) (s : State) :
    (State.raiseBusError g s).trace = s.trace := rfl

/-! ### State.abortClosed -/

@[simp] theorem State.abortClosed_cfg (s : State) :
    (State.abortClosed s).cfg = s.cfg := rfl
@[simp] theorem State.abortClosed_bl (s : State) :
    (State.abortClosed s).bl = s.bl := rfl
@[simp] theorem State.abortClosed_req0 (s : State) :
    (State.abortClosed s).req0 = s.req0 := rfl
@[simp] theorem State.abortClosed_req1 (s : State) :
    (State.abortClosed s).req1 = s.req1 := rfl
@[simp] theorem State.abortClosed_seq (s : State) :
    (State.abortClosed s).seq = { s.seq with ph := .resp } := rfl
@[simp] theorem State.abortClosed_session (s : State) :
    (State.abortClosed s).session = s.session := rfl
@[simp] theorem State.abortClosed_pend (s : State) :
    (State.abortClosed s).pend = s.pend := rfl
@[simp] theorem State.abortClosed_status (s : State) :
    (State.abortClosed s).status = s.errStage.status := rfl
@[simp] theorem State.abortClosed_errOp (s : State) :
    (State.abortClosed s).errOp = s.errOp := rfl
@[simp] theorem State.abortClosed_errStage (s : State) :
    (State.abortClosed s).errStage = s.errStage := rfl
@[simp] theorem State.abortClosed_errStep (s : State) :
    (State.abortClosed s).errStep = s.errStep := rfl
@[simp] theorem State.abortClosed_errWidx (s : State) :
    (State.abortClosed s).errWidx = s.errWidx := rfl
@[simp] theorem State.abortClosed_link (s : State) :
    (State.abortClosed s).link = .indeterminate := rfl
@[simp] theorem State.abortClosed_fault (s : State) :
    (State.abortClosed s).fault = s.fault := rfl
@[simp] theorem State.abortClosed_mem (s : State) :
    (State.abortClosed s).mem = s.mem := rfl
@[simp] theorem State.abortClosed_transport (s : State) :
    (State.abortClosed s).transport = s.transport := rfl
@[simp] theorem State.abortClosed_timer (s : State) :
    (State.abortClosed s).timer = s.timer := rfl
@[simp] theorem State.abortClosed_host (s : State) :
    (State.abortClosed s).host = s.host := rfl
@[simp] theorem State.abortClosed_pins (s : State) :
    (State.abortClosed s).pins = s.pins := rfl
@[simp] theorem State.abortClosed_trace (s : State) :
    (State.abortClosed s).trace = s.trace := rfl

/-! ### State.raiseBufFault -/

@[simp] theorem State.raiseBufFault_cfg (s : State) :
    (State.raiseBufFault s).cfg = s.cfg := rfl
@[simp] theorem State.raiseBufFault_bl (s : State) :
    (State.raiseBufFault s).bl = s.bl := rfl
@[simp] theorem State.raiseBufFault_req0 (s : State) :
    (State.raiseBufFault s).req0 = s.req0 := rfl
@[simp] theorem State.raiseBufFault_req1 (s : State) :
    (State.raiseBufFault s).req1 = s.req1 := rfl
@[simp] theorem State.raiseBufFault_seq (s : State) :
    (State.raiseBufFault s).seq = { s.seq with ph := .faulted } := rfl
@[simp] theorem State.raiseBufFault_session (s : State) :
    (State.raiseBufFault s).session = s.session := rfl
@[simp] theorem State.raiseBufFault_pend (s : State) :
    (State.raiseBufFault s).pend = s.pend := rfl
@[simp] theorem State.raiseBufFault_status (s : State) :
    (State.raiseBufFault s).status = s.status := rfl
@[simp] theorem State.raiseBufFault_errOp (s : State) :
    (State.raiseBufFault s).errOp = s.errOp := rfl
@[simp] theorem State.raiseBufFault_errStage (s : State) :
    (State.raiseBufFault s).errStage = s.errStage := rfl
@[simp] theorem State.raiseBufFault_errStep (s : State) :
    (State.raiseBufFault s).errStep = s.errStep := rfl
@[simp] theorem State.raiseBufFault_errWidx (s : State) :
    (State.raiseBufFault s).errWidx = s.errWidx := rfl
@[simp] theorem State.raiseBufFault_link (s : State) :
    (State.raiseBufFault s).link = s.link := rfl
@[simp] theorem State.raiseBufFault_fault (s : State) :
    (State.raiseBufFault s).fault = 1 := rfl
@[simp] theorem State.raiseBufFault_mem (s : State) :
    (State.raiseBufFault s).mem = s.mem := rfl
@[simp] theorem State.raiseBufFault_transport (s : State) :
    (State.raiseBufFault s).transport = s.transport := rfl
@[simp] theorem State.raiseBufFault_timer (s : State) :
    (State.raiseBufFault s).timer = s.timer := rfl
@[simp] theorem State.raiseBufFault_host (s : State) :
    (State.raiseBufFault s).host = s.host := rfl
@[simp] theorem State.raiseBufFault_pins (s : State) :
    (State.raiseBufFault s).pins = s.pins := rfl
@[simp] theorem State.raiseBufFault_trace (s : State) :
    (State.raiseBufFault s).trace = s.trace := rfl

/-! ### State.respondOk -/

@[simp] theorem State.respondOk_cfg (s : State) :
    (State.respondOk s).cfg = s.cfg := rfl
@[simp] theorem State.respondOk_bl (s : State) :
    (State.respondOk s).bl = s.bl := rfl
@[simp] theorem State.respondOk_req0 (s : State) :
    (State.respondOk s).req0 = s.req0 := rfl
@[simp] theorem State.respondOk_req1 (s : State) :
    (State.respondOk s).req1 = s.req1 := rfl
@[simp] theorem State.respondOk_seq (s : State) :
    (State.respondOk s).seq = { s.seq with ph := .resp } := rfl
@[simp] theorem State.respondOk_session (s : State) :
    (State.respondOk s).session = s.session := rfl
@[simp] theorem State.respondOk_pend (s : State) :
    (State.respondOk s).pend = s.pend := rfl
@[simp] theorem State.respondOk_status (s : State) :
    (State.respondOk s).status = .ok := rfl
@[simp] theorem State.respondOk_errOp (s : State) :
    (State.respondOk s).errOp = s.errOp := rfl
@[simp] theorem State.respondOk_errStage (s : State) :
    (State.respondOk s).errStage = s.errStage := rfl
@[simp] theorem State.respondOk_errStep (s : State) :
    (State.respondOk s).errStep = s.errStep := rfl
@[simp] theorem State.respondOk_errWidx (s : State) :
    (State.respondOk s).errWidx = s.errWidx := rfl
@[simp] theorem State.respondOk_link (s : State) :
    (State.respondOk s).link = s.link := rfl
@[simp] theorem State.respondOk_fault (s : State) :
    (State.respondOk s).fault = s.fault := rfl
@[simp] theorem State.respondOk_mem (s : State) :
    (State.respondOk s).mem = s.mem := rfl
@[simp] theorem State.respondOk_transport (s : State) :
    (State.respondOk s).transport = s.transport := rfl
@[simp] theorem State.respondOk_timer (s : State) :
    (State.respondOk s).timer = s.timer := rfl
@[simp] theorem State.respondOk_host (s : State) :
    (State.respondOk s).host = s.host := rfl
@[simp] theorem State.respondOk_pins (s : State) :
    (State.respondOk s).pins = s.pins := rfl
@[simp] theorem State.respondOk_trace (s : State) :
    (State.respondOk s).trace = s.trace := rfl

/-! ### State.endSession -/

@[simp] theorem State.endSession_cfg (s : State) :
    (State.endSession s).cfg = s.cfg := rfl
@[simp] theorem State.endSession_bl (s : State) :
    (State.endSession s).bl = s.bl := rfl
@[simp] theorem State.endSession_req0 (s : State) :
    (State.endSession s).req0 = s.req0 := rfl
@[simp] theorem State.endSession_req1 (s : State) :
    (State.endSession s).req1 = s.req1 := rfl
@[simp] theorem State.endSession_seq (s : State) :
    (State.endSession s).seq = { s.seq with sub := .hiSet } := rfl
@[simp] theorem State.endSession_session (s : State) :
    (State.endSession s).session = 0 := rfl
@[simp] theorem State.endSession_pend (s : State) :
    (State.endSession s).pend = s.pend := rfl
@[simp] theorem State.endSession_status (s : State) :
    (State.endSession s).status = s.status := rfl
@[simp] theorem State.endSession_errOp (s : State) :
    (State.endSession s).errOp = s.errOp := rfl
@[simp] theorem State.endSession_errStage (s : State) :
    (State.endSession s).errStage = s.errStage := rfl
@[simp] theorem State.endSession_errStep (s : State) :
    (State.endSession s).errStep = s.errStep := rfl
@[simp] theorem State.endSession_errWidx (s : State) :
    (State.endSession s).errWidx = s.errWidx := rfl
@[simp] theorem State.endSession_link (s : State) :
    (State.endSession s).link = s.link := rfl
@[simp] theorem State.endSession_fault (s : State) :
    (State.endSession s).fault = s.fault := rfl
@[simp] theorem State.endSession_mem (s : State) :
    (State.endSession s).mem = s.mem := rfl
@[simp] theorem State.endSession_transport (s : State) :
    (State.endSession s).transport = s.transport := rfl
@[simp] theorem State.endSession_timer (s : State) :
    (State.endSession s).timer = s.timer := rfl
@[simp] theorem State.endSession_host (s : State) :
    (State.endSession s).host = s.host := rfl
@[simp] theorem State.endSession_pins (s : State) :
    (State.endSession s).pins = s.pins := rfl
@[simp] theorem State.endSession_trace (s : State) :
    (State.endSession s).trace = s.trace ++ [.closed] := rfl

/-! ### State.startCommand -/

@[simp] theorem State.startCommand_cfg (s : State) :
    (State.startCommand s).cfg = s.cfg := rfl
@[simp] theorem State.startCommand_bl (s : State) :
    (State.startCommand s).bl = s.bl := rfl
@[simp] theorem State.startCommand_req0 (s : State) :
    (State.startCommand s).req0 = s.req0 := rfl
@[simp] theorem State.startCommand_req1 (s : State) :
    (State.startCommand s).req1 = s.req1 := rfl
@[simp] theorem State.startCommand_seq (s : State) :
    (State.startCommand s).seq = { s.seq with cur := s.seq.issued, ph := .write } := rfl
@[simp] theorem State.startCommand_session (s : State) :
    (State.startCommand s).session = s.session := rfl
@[simp] theorem State.startCommand_pend (s : State) :
    (State.startCommand s).pend = s.pend := rfl
@[simp] theorem State.startCommand_status (s : State) :
    (State.startCommand s).status = s.status := rfl
@[simp] theorem State.startCommand_errOp (s : State) :
    (State.startCommand s).errOp = s.errOp := rfl
@[simp] theorem State.startCommand_errStage (s : State) :
    (State.startCommand s).errStage = s.errStage := rfl
@[simp] theorem State.startCommand_errStep (s : State) :
    (State.startCommand s).errStep = s.errStep := rfl
@[simp] theorem State.startCommand_errWidx (s : State) :
    (State.startCommand s).errWidx = s.errWidx := rfl
@[simp] theorem State.startCommand_link (s : State) :
    (State.startCommand s).link = s.link := rfl
@[simp] theorem State.startCommand_fault (s : State) :
    (State.startCommand s).fault = s.fault := rfl
@[simp] theorem State.startCommand_mem (s : State) :
    (State.startCommand s).mem = s.mem := rfl
@[simp] theorem State.startCommand_transport (s : State) :
    (State.startCommand s).transport = s.transport := rfl
@[simp] theorem State.startCommand_timer (s : State) :
    (State.startCommand s).timer = s.timer := rfl
@[simp] theorem State.startCommand_host (s : State) :
    (State.startCommand s).host = s.host := rfl
@[simp] theorem State.startCommand_pins (s : State) :
    (State.startCommand s).pins = s.pins := rfl
@[simp] theorem State.startCommand_trace (s : State) :
    (State.startCommand s).trace = s.trace := rfl

/-! ### State.issueCommand -/

@[simp] theorem State.issueCommand_cfg (v : Byte) (b : Bit) (s : State) :
    (State.issueCommand v b s).cfg = s.cfg := rfl
@[simp] theorem State.issueCommand_bl (v : Byte) (b : Bit) (s : State) :
    (State.issueCommand v b s).bl = s.bl := rfl
@[simp] theorem State.issueCommand_req0 (v : Byte) (b : Bit) (s : State) :
    (State.issueCommand v b s).req0 = s.req0 := rfl
@[simp] theorem State.issueCommand_req1 (v : Byte) (b : Bit) (s : State) :
    (State.issueCommand v b s).req1 = s.req1 := rfl
@[simp] theorem State.issueCommand_seq (v : Byte) (b : Bit) (s : State) :
    (State.issueCommand v b s).seq = { s.seq with
      issued := v, cur := if s.pend = .none then v else s.seq.cur, rs := b, sub := .hiSet
      ph := if s.pend = .none then .write else .waitIn } := rfl
@[simp] theorem State.issueCommand_session (v : Byte) (b : Bit) (s : State) :
    (State.issueCommand v b s).session = s.session := rfl
@[simp] theorem State.issueCommand_pend (v : Byte) (b : Bit) (s : State) :
    (State.issueCommand v b s).pend = s.pend := rfl
@[simp] theorem State.issueCommand_status (v : Byte) (b : Bit) (s : State) :
    (State.issueCommand v b s).status = s.status := rfl
@[simp] theorem State.issueCommand_errOp (v : Byte) (b : Bit) (s : State) :
    (State.issueCommand v b s).errOp = s.errOp := rfl
@[simp] theorem State.issueCommand_errStage (v : Byte) (b : Bit) (s : State) :
    (State.issueCommand v b s).errStage = s.errStage := rfl
@[simp] theorem State.issueCommand_errStep (v : Byte) (b : Bit) (s : State) :
    (State.issueCommand v b s).errStep = s.errStep := rfl
@[simp] theorem State.issueCommand_errWidx (v : Byte) (b : Bit) (s : State) :
    (State.issueCommand v b s).errWidx = s.errWidx := rfl
@[simp] theorem State.issueCommand_link (v : Byte) (b : Bit) (s : State) :
    (State.issueCommand v b s).link = s.link := rfl
@[simp] theorem State.issueCommand_fault (v : Byte) (b : Bit) (s : State) :
    (State.issueCommand v b s).fault = s.fault := rfl
@[simp] theorem State.issueCommand_mem (v : Byte) (b : Bit) (s : State) :
    (State.issueCommand v b s).mem = s.mem := rfl
@[simp] theorem State.issueCommand_transport (v : Byte) (b : Bit) (s : State) :
    (State.issueCommand v b s).transport = s.transport := rfl
@[simp] theorem State.issueCommand_timer (v : Byte) (b : Bit) (s : State) :
    (State.issueCommand v b s).timer = s.timer := rfl
@[simp] theorem State.issueCommand_host (v : Byte) (b : Bit) (s : State) :
    (State.issueCommand v b s).host = s.host := rfl
@[simp] theorem State.issueCommand_pins (v : Byte) (b : Bit) (s : State) :
    (State.issueCommand v b s).pins = s.pins := rfl
@[simp] theorem State.issueCommand_trace (v : Byte) (b : Bit) (s : State) :
    (State.issueCommand v b s).trace = s.trace := rfl

/-! ### State.latch -/

@[simp] theorem State.latch_cfg (r : Request) (s : State) :
    (State.latch r s).cfg = s.cfg := rfl
@[simp] theorem State.latch_bl (r : Request) (s : State) :
    (State.latch r s).bl = s.bl := rfl
@[simp] theorem State.latch_req0 (r : Request) (s : State) :
    (State.latch r s).req0 = r.w0 := rfl
@[simp] theorem State.latch_req1 (r : Request) (s : State) :
    (State.latch r s).req1 = if requestWords r.w0 = 2 then r.w1 else s.req1 := rfl
@[simp] theorem State.latch_seq (r : Request) (s : State) :
    (State.latch r s).seq = s.seq := rfl
@[simp] theorem State.latch_session (r : Request) (s : State) :
    (State.latch r s).session = s.session := rfl
@[simp] theorem State.latch_pend (r : Request) (s : State) :
    (State.latch r s).pend = s.pend := rfl
@[simp] theorem State.latch_status (r : Request) (s : State) :
    (State.latch r s).status = s.status := rfl
@[simp] theorem State.latch_errOp (r : Request) (s : State) :
    (State.latch r s).errOp = s.errOp := rfl
@[simp] theorem State.latch_errStage (r : Request) (s : State) :
    (State.latch r s).errStage = s.errStage := rfl
@[simp] theorem State.latch_errStep (r : Request) (s : State) :
    (State.latch r s).errStep = s.errStep := rfl
@[simp] theorem State.latch_errWidx (r : Request) (s : State) :
    (State.latch r s).errWidx = s.errWidx := rfl
@[simp] theorem State.latch_link (r : Request) (s : State) :
    (State.latch r s).link = s.link := rfl
@[simp] theorem State.latch_fault (r : Request) (s : State) :
    (State.latch r s).fault = s.fault := rfl
@[simp] theorem State.latch_mem (r : Request) (s : State) :
    (State.latch r s).mem = s.mem := rfl
@[simp] theorem State.latch_transport (r : Request) (s : State) :
    (State.latch r s).transport = s.transport := rfl
@[simp] theorem State.latch_timer (r : Request) (s : State) :
    (State.latch r s).timer = s.timer := rfl
@[simp] theorem State.latch_host (r : Request) (s : State) :
    (State.latch r s).host = s.host := rfl
@[simp] theorem State.latch_pins (r : Request) (s : State) :
    (State.latch r s).pins = s.pins := rfl
@[simp] theorem State.latch_trace (r : Request) (s : State) :
    (State.latch r s).trace = s.trace := rfl

/-! ### State.accept -/

@[simp] theorem State.accept_cfg (r : Request) (s : State) :
    (State.accept r s).cfg = s.cfg := rfl
@[simp] theorem State.accept_bl (r : Request) (s : State) :
    (State.accept r s).bl = s.bl := rfl
@[simp] theorem State.accept_req0 (r : Request) (s : State) :
    (State.accept r s).req0 = r.w0 := rfl
@[simp] theorem State.accept_req1 (r : Request) (s : State) :
    (State.accept r s).req1 = if requestWords r.w0 = 2 then r.w1 else s.req1 := rfl
@[simp] theorem State.accept_seq (r : Request) (s : State) :
    (State.accept r s).seq = Seq.zero := rfl
@[simp] theorem State.accept_session (r : Request) (s : State) :
    (State.accept r s).session = s.session := rfl
@[simp] theorem State.accept_pend (r : Request) (s : State) :
    (State.accept r s).pend = s.pend := rfl
@[simp] theorem State.accept_status (r : Request) (s : State) :
    (State.accept r s).status = s.status := rfl
@[simp] theorem State.accept_errOp (r : Request) (s : State) :
    (State.accept r s).errOp = s.errOp := rfl
@[simp] theorem State.accept_errStage (r : Request) (s : State) :
    (State.accept r s).errStage = s.errStage := rfl
@[simp] theorem State.accept_errStep (r : Request) (s : State) :
    (State.accept r s).errStep = s.errStep := rfl
@[simp] theorem State.accept_errWidx (r : Request) (s : State) :
    (State.accept r s).errWidx = 0 := rfl
@[simp] theorem State.accept_link (r : Request) (s : State) :
    (State.accept r s).link = s.link := rfl
@[simp] theorem State.accept_fault (r : Request) (s : State) :
    (State.accept r s).fault = s.fault := rfl
@[simp] theorem State.accept_mem (r : Request) (s : State) :
    (State.accept r s).mem = s.mem := rfl
@[simp] theorem State.accept_transport (r : Request) (s : State) :
    (State.accept r s).transport = s.transport := rfl
@[simp] theorem State.accept_timer (r : Request) (s : State) :
    (State.accept r s).timer = s.timer := rfl
@[simp] theorem State.accept_host (r : Request) (s : State) :
    (State.accept r s).host = s.host := rfl
@[simp] theorem State.accept_pins (r : Request) (s : State) :
    (State.accept r s).pins = s.pins := rfl
@[simp] theorem State.accept_trace (r : Request) (s : State) :
    (State.accept r s).trace = s.trace := rfl

/-! ### State.backlightStep -/

@[simp] theorem State.backlightStep_cfg (b : Bit) (s : State) :
    (State.backlightStep b s).cfg = s.cfg := rfl
@[simp] theorem State.backlightStep_bl (b : Bit) (s : State) :
    (State.backlightStep b s).bl = b := rfl
@[simp] theorem State.backlightStep_req0 (b : Bit) (s : State) :
    (State.backlightStep b s).req0 = s.req0 := rfl
@[simp] theorem State.backlightStep_req1 (b : Bit) (s : State) :
    (State.backlightStep b s).req1 = s.req1 := rfl
@[simp] theorem State.backlightStep_seq (b : Bit) (s : State) :
    (State.backlightStep b s).seq = { s.seq with ph := .openBus } := rfl
@[simp] theorem State.backlightStep_session (b : Bit) (s : State) :
    (State.backlightStep b s).session = s.session := rfl
@[simp] theorem State.backlightStep_pend (b : Bit) (s : State) :
    (State.backlightStep b s).pend = s.pend := rfl
@[simp] theorem State.backlightStep_status (b : Bit) (s : State) :
    (State.backlightStep b s).status = s.status := rfl
@[simp] theorem State.backlightStep_errOp (b : Bit) (s : State) :
    (State.backlightStep b s).errOp = s.errOp := rfl
@[simp] theorem State.backlightStep_errStage (b : Bit) (s : State) :
    (State.backlightStep b s).errStage = s.errStage := rfl
@[simp] theorem State.backlightStep_errStep (b : Bit) (s : State) :
    (State.backlightStep b s).errStep = s.errStep := rfl
@[simp] theorem State.backlightStep_errWidx (b : Bit) (s : State) :
    (State.backlightStep b s).errWidx = s.errWidx := rfl
@[simp] theorem State.backlightStep_link (b : Bit) (s : State) :
    (State.backlightStep b s).link = s.link := rfl
@[simp] theorem State.backlightStep_fault (b : Bit) (s : State) :
    (State.backlightStep b s).fault = s.fault := rfl
@[simp] theorem State.backlightStep_mem (b : Bit) (s : State) :
    (State.backlightStep b s).mem = s.mem := rfl
@[simp] theorem State.backlightStep_transport (b : Bit) (s : State) :
    (State.backlightStep b s).transport = s.transport := rfl
@[simp] theorem State.backlightStep_timer (b : Bit) (s : State) :
    (State.backlightStep b s).timer = s.timer := rfl
@[simp] theorem State.backlightStep_host (b : Bit) (s : State) :
    (State.backlightStep b s).host = s.host := rfl
@[simp] theorem State.backlightStep_pins (b : Bit) (s : State) :
    (State.backlightStep b s).pins = s.pins := rfl
@[simp] theorem State.backlightStep_trace (b : Bit) (s : State) :
    (State.backlightStep b s).trace = s.trace := rfl

end Sys2Proof.Machine
end

