-- ==== Sys2Proof/Laws/Ops.lean ====
section
/-! SUPPORT. One lemma per shared operation that says everything it can do, and the one induction over the sequencer's
run; a proof cites these instead of unfolding the operation. -/

namespace Sys2Proof.Machine

open Sys2Proof

/-! ### Tapes and calls -/

theorem Tape.draw_cases {α : Type} (t : Tape α) :
    (∃ a l, t.script = a :: l ∧ t.draw = some (a, ⟨l, t.rest⟩)) ∨
    (∃ a, t.script = [] ∧ t.rest = some a ∧ t.draw = some (a, t)) ∨
    (t.script = [] ∧ t.rest = none ∧ t.draw = none) := by
  obtain ⟨_ | ⟨a, l⟩, _ | r⟩ := t
  · exact .inr (.inr ⟨rfl, rfl, rfl⟩)
  · exact .inr (.inl ⟨r, rfl, rfl, rfl⟩)
  · exact .inl ⟨a, l, rfl, rfl⟩
  · exact .inl ⟨a, l, rfl, rfl⟩

theorem busCall_silent {onCall : State → State} {k : Answer → State → Move} {s : State}
    (h : s.transport.draw = none) : busCall onCall k s = .halt (s.called onCall) := by
  simp [busCall, h]

theorem busCall_answered {onCall : State → State} {k : Answer → State → Move} {s : State} {a : Answer}
    {t : Tape Answer} (h : s.transport.draw = some (a, t)) :
    busCall onCall k s = k a ((s.called onCall).answered t) := by
  simp [busCall, h]

/-- A call made for the first time. -/
theorem State.called_fresh {onCall : State → State} {s : State} (h : s.seq.asked = 0) :
    s.called onCall = { onCall s with seq := { (onCall s).seq with asked := 1 } } := by
  simp [State.called, h]

/-- A call whose answer is awaited. -/
theorem State.called_again {onCall : State → State} {s : State} (h : s.seq.asked = 1) : s.called onCall = s := by
  simp [State.called, h]

theorem busOpen_ok {next : State → State} {s : State} {t : Tape Answer} (h : s.transport.draw = some (.ok, t)) :
    busOpen next s = .go (next (((s.called State.enterSession).answered t).log
      (.opened (s.called State.enterSession).cfg.devAddr .ok))) := by
  simp [busOpen, busCall_answered h]

theorem busOpen_err {next : State → State} {s : State} {t : Tape Answer} (h : s.transport.draw = some (.err, t)) :
    busOpen next s = .go ((((s.called State.enterSession).answered t).log
      (.opened (s.called State.enterSession).cfg.devAddr .err)).raiseBusError .opening) := by
  simp [busOpen, busCall_answered h]

theorem busOpen_silent {next : State → State} {s : State} (h : s.transport.draw = none) :
    busOpen next s = .halt (s.called State.enterSession) := busCall_silent h

@[simp] theorem pinsAfter_ok (b : Byte) : pinsAfter b .ok = some b := rfl
@[simp] theorem pinsAfter_err (b : Byte) : pinsAfter b .err = none := rfl

theorem put_ok {b : Byte} {kind : WriteKind} {next : State → State} {s : State} {t : Tape Answer}
    (h : s.transport.draw = some (.ok, t)) :
    put b kind next s = .go (next { ((s.called State.countWrite).answered t).log (.wrote b kind .ok) with
      pins := some b }) := by
  simp [put, busCall_answered h]

theorem put_err {b : Byte} {kind : WriteKind} {next : State → State} {s : State} {t : Tape Answer}
    (h : s.transport.draw = some (.err, t)) :
    put b kind next s = .go (State.raiseBusError .writing
      { ((s.called State.countWrite).answered t).log (.wrote b kind .err) with
        pins := none }) := by
  simp [put, busCall_answered h]

theorem put_silent {b : Byte} {kind : WriteKind} {next : State → State} {s : State} (h : s.transport.draw = none) :
    put b kind next s = .halt (s.called State.countWrite) := busCall_silent h

theorem waitFor_done {c : DelayClass} {next : State → State} {s : State} {late : Nat} {t : Tape Nat}
    (h : s.timer.draw = some (late, t)) :
    waitFor c next s = .go (next ({ s with timer := t }.log (.delayed c (duration s.cfg c + late)))) := by
  simp [waitFor, h]

theorem waitFor_silent {c : DelayClass} {next : State → State} {s : State} (h : s.timer.draw = none) :
    waitFor c next s = .halt s := by
  simp [waitFor, h]

/-- What a call of the transport can lead to, whatever it answers. -/
theorem put_cases (b : Byte) (kind : WriteKind) (next : State → State) (s : State) :
    (s.transport.draw = none ∧ put b kind next s = .halt (s.called State.countWrite)) ∨
    (∃ t, s.transport.draw = some (.ok, t) ∧
      put b kind next s = .go (next { ((s.called State.countWrite).answered t).log (.wrote b kind .ok) with
        pins := some b })) ∨
    (∃ t, s.transport.draw = some (.err, t) ∧
      put b kind next s = .go (State.raiseBusError .writing
        { ((s.called State.countWrite).answered t).log (.wrote b kind .err) with
          pins := none })) := by
  rcases h : s.transport.draw with _ | ⟨_ | _, t⟩
  · exact .inl ⟨rfl, put_silent h⟩
  · exact .inr (.inl ⟨t, rfl, put_ok h⟩)
  · exact .inr (.inr ⟨t, rfl, put_err h⟩)

/-- What a `BusOpen` can lead to, whatever the transport answers. -/
theorem busOpen_cases (next : State → State) (s : State) :
    (s.transport.draw = none ∧ busOpen next s = .halt (s.called State.enterSession)) ∨
    (∃ t, s.transport.draw = some (.ok, t) ∧
      busOpen next s = .go (next (((s.called State.enterSession).answered t).log
        (.opened (s.called State.enterSession).cfg.devAddr .ok)))) ∨
    (∃ t, s.transport.draw = some (.err, t) ∧
      busOpen next s = .go ((((s.called State.enterSession).answered t).log
        (.opened (s.called State.enterSession).cfg.devAddr .err)).raiseBusError .opening)) := by
  rcases h : s.transport.draw with _ | ⟨_ | _, t⟩
  · exact .inl ⟨rfl, busOpen_silent h⟩
  · exact .inr (.inl ⟨t, rfl, busOpen_ok h⟩)
  · exact .inr (.inr ⟨t, rfl, busOpen_err h⟩)

/-- What a `Wait` can lead to. -/
theorem waitFor_cases (c : DelayClass) (next : State → State) (s : State) :
    (s.timer.draw = none ∧ waitFor c next s = .halt s) ∨
    (∃ late t, s.timer.draw = some (late, t) ∧
      waitFor c next s = .go (next ({ s with timer := t }.log (.delayed c (duration s.cfg c + late))))) := by
  rcases h : s.timer.draw with _ | ⟨late, t⟩
  · exact .inl ⟨rfl, waitFor_silent h⟩
  · exact .inr ⟨late, t, rfl, waitFor_done h⟩

/-! ### The close, the response, the reads -/

theorem closePhase_normal {after : State → State} {s : State} (h : s.seq.abort = 0) :
    closePhase after s = .go (after s.endSession) := by
  simp [closePhase, h]

theorem closePhase_abort {after : State → State} {s : State} (h : s.seq.abort = 1) :
    closePhase after s = .go s.endSession.abortClosed := by
  simp [closePhase, h]

/-- The host's changes leave everything of the block as it is, and the memory canonical. -/
theorem State.hostEdits_cases (s : State) :
    s.hostEdits = s ∨
    ∃ es rest, s.host.edits = es :: rest ∧
      s.hostEdits = { s with mem := Memory.edits s.mem es, host := { s.host with edits := rest } } := by
  unfold State.hostEdits
  split
  · exact .inl rfl
  · next es rest h => exact .inr ⟨es, rest, h, rfl⟩

theorem State.hostEdits_wf {s : State} (h : Memory.wf s.mem) : Memory.wf s.hostEdits.mem := by
  rcases s.hostEdits_cases with e | ⟨es, rest, -, e⟩
  · rw [e]; exact h
  · rw [e]; exact Memory.edits_wf es s.mem h

/-! ### Running -/

@[simp] theorem run_zero (tick : State → Move) (s : State) : run tick 0 s = .next s := rfl

theorem run_go {tick : State → Move} {s s' : State} (h : tick s = .go s') (n : Nat) :
    run tick (n + 1) s = run tick n s' := by
  simp [run, h]

theorem run_halt {tick : State → Move} {s s' : State} (h : tick s = .halt s') (n : Nat) :
    run tick (n + 1) s = .next s' := by
  simp [run, h]

theorem run_refused {tick : State → Move} {s : State} {r : Refusal} (h : tick s = .refused r) (n : Nat) :
    run tick (n + 1) s = .refused r := by
  simp [run, h]

/-- A run never faults. -/
theorem run_no_fault (tick : State → Move) (n : Nat) (s : State) (f : Fault) : run tick n s ≠ .fault f := by
  induction n generalizing s with
  | zero => simp [run]
  | succ n ih =>
    rcases h : tick s with s' | s' | r
    · rw [run_go h]; exact ih s'
    · rw [run_halt h]; simp
    · rw [run_refused h]; simp

/-- What every step of the sequencer keeps, a whole run keeps. -/
theorem run_keeps {tick : State → Move} (P : State → Prop)
    (hgo : ∀ s s', P s → tick s = .go s' → P s') (hhalt : ∀ s s', P s → tick s = .halt s' → P s')
    (n : Nat) (s t : State) (hs : P s) (h : run tick n s = .next t) : P t := by
  induction n generalizing s with
  | zero =>
    simp only [run_zero, Host.Outcome.next.injEq] at h
    exact h ▸ hs
  | succ n ih =>
    rcases ht : tick s with s' | s' | r
    · rw [run_go ht] at h; exact ih s' (hgo s s' hs ht) h
    · rw [run_halt ht] at h
      simp only [Host.Outcome.next.injEq] at h
      exact h ▸ hhalt s s' hs ht
    · rw [run_refused ht] at h; cases h

theorem serve_idle {start : State → State} {tick : State → Move} {r : Request} {s : State} (h : s.seq.ph = .idle) :
    serve start tick r s = run tick maxPrimitives (start (s.accept r)) := by
  simp [serve, h]

theorem serve_faulted {start : State → State} {tick : State → Move} {r : Request} {s : State}
    (h : s.seq.ph = .faulted) : serve start tick r s = .fault .bufFault := by
  simp [serve, h]

theorem serve_busy {start : State → State} {tick : State → Move} {r : Request} {s : State} (h₁ : s.seq.ph ≠ .idle)
    (h₂ : s.seq.ph ≠ .faulted) : serve start tick r s = .next s := by
  unfold serve
  split <;> first | rfl | contradiction

end Sys2Proof.Machine
end

