-- ==== Sys2Proof/Laws/PerInstr.lean ====
section
/-! SUPPORT. Statements made per instruction. Family `EncodedFields`: the encoder's words have the fields the opcode
table gives the request (spec 30_encoding R78 to R81). -/

namespace Sys2Proof.Laws.EncodedFields

open Sys2Proof

/-- The encoded word 0 has the request's operation code, `RSV` 0, and as many words as R80 says. -/
def Statement (i : Instr) : Prop :=
  fieldOp (encode i).w0 = opcode i ∧ fieldRsv (encode i).w0 = 0 ∧
    requestWords (encode i).w0 = (match i with | .puts _ _ _ => 2 | _ => 1)

theorem initx : Statement .initx := by simp [Statement, encode, opcode, requestWords]

theorem initd : Statement .initd := by simp [Statement, encode, opcode, requestWords]

theorem putc (val pos : Byte) : Statement (.putc val pos) := by simp [Statement, encode, opcode, requestWords]

theorem puts (buf : Word) (pos len : Byte) : Statement (.puts buf pos len) := by
  simp [Statement, encode, opcode, requestWords]

theorem setbl (on : Bit) : Statement (.setbl on) := by simp [Statement, encode, opcode, requestWords]

theorem blink (count : Byte) : Statement (.blink count) := by simp [Statement, encode, opcode, requestWords]

theorem clear : Statement .clear := by simp [Statement, encode, opcode, requestWords]

end Sys2Proof.Laws.EncodedFields
end

