-- ==== Sys2Proof/Tests/Slice0.lean ====
section
/-! SUPPORT. The model's own tests. Expected words, bytes and traces are those of spec/95_test_vectors.md, 30_encoding R89
and 42_character R160 to R163; each theorem names its vector. Then one witness per statement that has hypotheses. -/

namespace Sys2Proof.Tests

open Sys2Proof Sys2Proof.Machine

/-! ### Helpers -/

/-- The state an outcome leads to, or the reset state. -/
def after : Host.Outcome State Fault Refusal → State
  | .next s => s
  | .fault _ => State.reset
  | .refused _ => State.reset

/-- The one request `w0, w1` is presented to `s` and one step is taken. -/
def request (s : State) (w0 : Word) (w1 : Word := 0) : State :=
  after (step { s with host := { s.host with queue := [⟨w0, w1⟩] } })

/-- The trace as 00_scope R12 has it. -/
def bare (s : State) : List Event := s.trace.map Event.bare

def openOk : Event := .opened 0 .ok
def w (b : Byte) : Event := .wrote b .port .ok
def wErr (b : Byte) : Event := .wrote b .port .err
def d (c : DelayClass) : Event := .delayed c 0
def rd (a : Word) (v : Byte) : Event := .readAt a (some v)

/-- The transport answers OK `n` times, then ERR, then OK. -/
def failing (n : Nat) (s : State) : State := { s with transport := ⟨List.replicate n .ok ++ [.err], some .ok⟩ }

/-- The transport answers OK `n` times and then never. -/
def stalling (n : Nat) (s : State) : State := { s with transport := ⟨List.replicate n .ok, none⟩ }

/-- The reset state with buffer memory. -/
def withMem (m : List Host.Cell) : State := { State.reset with mem := m }

/-- Layout L2 of 95 V-ENC-4. -/
def layoutL2 : Config :=
  { Config.default with cfgD7 := 0, cfgD6 := 1, cfgD5 := 2, cfgD4 := 3, cfgBl := 4, cfgE := 5, cfgRs := 6 }

/-- Layout L1 of 95 V-ENC-3. -/
def layoutL1 : Config :=
  { Config.default with cfgRs := 0, cfgE := 2, cfgBl := 3, cfgD4 := 4, cfgD5 := 5, cfgD6 := 6, cfgD7 := 7 }

/-- The default configuration with the prefix byte 0x99. -/
def prefixed : State := State.constructed { Config.default with regPrefix := true, gpioReg := 0x99 }

/-! ### Well-formedness: an ill-formed term for each check -/

theorem test_config_default_wf : Config.default.wf := by decide
theorem test_config_two_lines_refused : ¬ ({ Config.default with cfgRs := 7 } : Config).wf := by decide
theorem test_config_two_lines_not_constructed : State.construct { Config.default with cfgRs := 7 } = none := by decide
theorem test_config_long_sequence_refused :
    ¬ ({ Config.default with expanderInitSeq := List.replicate 256 0 } : Config).wf := by
  intro h
  have h₂ : (List.replicate 256 (0 : Byte)).length ≤ 255 := h.2
  rw [List.length_replicate] at h₂
  omega
theorem test_asm_putc_val : assemble (.putc (.dec 256) (.dec 0)) = none := by decide
theorem test_asm_putc_pos : assemble (.putc (.dec 0) (.hex 0x100)) = none := by decide
theorem test_asm_putcHere : assemble (.putcHere (.dec 256)) = none := by decide
theorem test_asm_puts_buf : assemble (.puts (.hex 0x100000000) (.dec 0) (.dec 0)) = none := by decide
theorem test_asm_puts_pos : assemble (.puts (.dec 0) (.dec 256) (.dec 0)) = none := by decide
theorem test_asm_puts_len : assemble (.puts (.dec 0) (.dec 0) (.dec 256)) = none := by decide
theorem test_asm_putsz_buf : assemble (.putsz (.hex 0x100000000) (.dec 0)) = none := by decide
theorem test_asm_putsz_pos : assemble (.putsz (.dec 0) (.dec 256)) = none := by decide
theorem test_asm_putszHere : assemble (.putszHere (.hex 0x100000000)) = none := by decide
theorem test_asm_setbl : assemble (.setbl (.dec 2)) = none := by decide
theorem test_asm_blink : assemble (.blink (.dec 256)) = none := by decide
theorem test_asm_program_P1 : assemble (.putc (.chr 0x41) (.dec 0)) = some (.putc 0x41 0) := by decide

/-- The host's bytes for characters: their codes below 256. -/
def latin (c : Char) : Option Byte := if c.toNat < 256 then some (BitVec.ofNat 8 c.toNat) else none
/-- `PUTC 'A', 0` of 95 program P1. -/
theorem test_line_putc :
    assembleLine latin ['P', 'U', 'T', 'C', ' ', '\'', 'A', '\'', ',', ' ', '0'] = some ⟨0x30000041, 0⟩ := by decide
/-- `PUTSZ 0x1000, 0x40` of 95 program P2, with a comment. -/
theorem test_line_putsz : assembleLine latin
    (['P', 'U', 'T', 'S', 'Z', ' ', '0', 'x', '1', '0', '0', '0', ','] ++ [' ', '0', 'x', '4', '0', ' ', ';', 'c']) =
      some ⟨0x40004000, 0x1000⟩ := by decide
/-- An operand that does not fit, a missing operand, an unknown mnemonic. -/
theorem test_line_refused :
    assembleLine latin ['B', 'L', 'I', 'N', 'K', ' ', '2', '5', '6'] = none ∧
    assembleLine latin ['B', 'L', 'I', 'N', 'K'] = none ∧ assembleLine latin ['N', 'O', 'P'] = none := by decide

/-! ### Decoding: words written out bit by bit from 30_encoding R78, R89 -/

theorem test_decode_initx : decodeTableWord 32 0b00010000000000000000000000000000 = some .initx := by decide
theorem test_decode_initd : decodeTableWord 32 0b00100000000000000000000000000000 = some .initd := by decide
theorem test_decode_putc :
    decodeTableWord 32 0b00110000000000001100000001000001 = some (.putc 0x41 0xC0) := by decide
theorem test_decode_puts :
    decodeTableWord 64 0b0001001000110100010101100111100001000000000000111111111100000000 =
      some (.puts 0x12345678 0xFF 0x03) := by decide
theorem test_decode_puts_second_word_zero : decodeTableWord 32 0x4003FF00 = some (.puts 0 0xFF 0x03) := by decide
theorem test_decode_setbl : decodeTableWord 32 0b01010000000000000000000000000001 = some (.setbl 1) := by decide
theorem test_decode_blink : decodeTableWord 32 0b01100000000000000000000011111111 = some (.blink 255) := by decide
theorem test_decode_clear : decodeTableWord 32 0b01110000000000000000000000000000 = some .clear := by decide
theorem test_encode_putc : (encode (.putc 0x41 0xFF)).w0 = 0x3000FF41 := by decide
theorem test_encode_puts : encode (.puts 0x1000 0xFF 3) = ⟨0x4003FF00, 0x1000⟩ := by decide

/-- V-ILL-1 to V-ILL-7, and OP 0xF. -/
theorem test_illegal_words :
    [0x00000000, 0x80000000, 0x31000041, 0x50000002, 0x40000001, 0x30010041, 0x20000001, 0xF0000000].map
      (decodeTableWord 32) = List.replicate 8 none := by decide

/-- V-ILL-4: the response, and `BL` unchanged. -/
theorem test_illegal_response :
    bare (request State.reset 0x50000002) = [.responded .illegalRequest] ∧
    (request State.reset 0x50000002).bl = 0 ∧ (request State.reset 0x50000002).status.code = 3 := by decide

/-! ### The Signal Encoder (95 section 2.1) -/

theorem test_encode_A5_upper : signalEncode Config.default 0xA5 .upper 1 1 = 0xD2 := by decide
theorem test_encode_A5_lower : signalEncode Config.default 0xA5 .lower 0 1 = 0xA8 := by decide
theorem test_encode_V_ENC_1 : signalEncode Config.default 0x41 .upper 5 0 = 0x22 := by decide
theorem test_encode_V_ENC_3 : signalEncode layoutL1 0x41 .upper 1 1 = 0x49 ∧ signalEncode layoutL1 0x41 .lower 1 1 = 0x19 := by
  decide
theorem test_encode_V_ENC_4 :
    signalEncode layoutL2 0x80 .upper 0 0 = 0x01 ∧ signalEncode layoutL2 0x10 .upper 0 0 = 0x08 ∧
    signalEncode layoutL2 0x80 .upper 1 1 = 0x51 ∧ signalEncode layoutL2 0xFF .upper 1 1 = 0x5F ∧
    oneHot layoutL2.cfgE = 0x20 := by decide
theorem test_unused_L2 : layoutL2.cfgUnused = 7 ∧ layoutL1.cfgUnused = 1 := by decide

/-! ### Requests (95 sections 2.3 to 2.9) -/

/-- V-IX-1. -/
theorem test_initx_two_bytes :
    (request (State.constructed { Config.default with expanderInitSeq := [0, 0] }) 0x10000000).trace =
      [openOk, .wrote 0 .raw .ok, .wrote 0 .raw .ok, .closed, .responded .ok] := by decide
/-- V-IX-3. -/
theorem test_initx_prefix :
    bare (request prefixed 0x10000000) = [openOk, w 0x99, .closed, .responded .ok] ∧
    (request prefixed 0x10000000).errWidx = 1 := by decide
/-- V-INIT-1. -/
theorem test_initd_trace :
    bare (request State.reset 0x20000000) =
      [openOk, w 0x18, w 0x1C, w 0x18, d .por1, w 0x18, w 0x1C, w 0x18, d .short, w 0x18, w 0x1C, w 0x18, d .short,
       w 0x10, w 0x14, w 0x10, d .std, w 0x10, w 0x14, w 0x10, w 0x40, w 0x44, w 0x40, d .std] ++
      [w 0x00, w 0x04, w 0x00, w 0x40, w 0x44, w 0x40, d .std, w 0x00, w 0x04, w 0x00, w 0x08, w 0x0C, w 0x08, d .clear,
       w 0x00, w 0x04, w 0x00, w 0x30, w 0x34, w 0x30, d .std, w 0x00, w 0x04, w 0x00, w 0x10, w 0x14, w 0x10, d .home,
       w 0x00, w 0x04, w 0x00, w 0x60, w 0x64, w 0x60, .closed, d .std, .responded .ok] := by decide +kernel
/-- V-INIT-3: the fifth write answers ERR. -/
theorem test_initd_fifth_write_fails :
    bare (request (failing 5 State.reset) 0x20000000) =
      [openOk, w 0x18, w 0x1C, w 0x18, d .por1, w 0x18, wErr 0x1C, .closed, .responded .busErrorWrite] ∧
    (request (failing 5 State.reset) 0x20000000).hostView =
      ⟨false, 2, 2, 2, 2, 5, 2, 0, 0⟩ := by decide
/-- V-SRC-1. -/
theorem test_putc_source_example :
    bare (request { State.reset with bl := 1 } 0x30000041) =
      [openOk, w 0xC0, w 0xC4, w 0xC0, w 0x80, w 0x84, w 0x80, d .std, w 0xA2, w 0xA6, w 0xA2, w 0x8A, w 0x8E, w 0x8A,
       .closed, d .std, .responded .ok] := by decide
/-- V-PC-1. -/
theorem test_putc_sentinel :
    bare (request State.reset 0x3000FF41) =
      [openOk, w 0x22, w 0x26, w 0x22, w 0x0A, w 0x0E, w 0x0A, .closed, d .std, .responded .ok] := by decide
/-- V-PS-1. -/
theorem test_puts_terminator :
    bare (request (withMem [(0x1000, 0x48), (0x1001, 0x69), (0x1002, 0)]) 0x40004000 0x1000) =
      [openOk, w 0x60, w 0x64, w 0x60, w 0x00, w 0x04, w 0x00, rd 0x1000 0x48, d .std, w 0x22, w 0x26, w 0x22, w 0x42,
       w 0x46, w 0x42, rd 0x1001 0x69, d .std, w 0x32, w 0x36, w 0x32, w 0x4A, w 0x4E, w 0x4A, rd 0x1002 0x00, .closed,
       d .std, .responded .ok] := by decide
/-- V-PS-5: the address wraps. -/
theorem test_puts_wraps :
    bare (request (withMem [(0, 0x42), (1, 0), (0xFFFFFFFF, 0x41)]) 0x4000FF00 0xFFFFFFFF) =
      [openOk, rd 0xFFFFFFFF 0x41, w 0x22, w 0x26, w 0x22, w 0x0A, w 0x0E, w 0x0A, rd 0 0x42, d .std, w 0x22, w 0x26,
       w 0x22, w 0x12, w 0x16, w 0x12, rd 1 0, .closed, d .std, .responded .ok] := by decide
/-- V-PS-4: outside the buffer. -/
theorem test_puts_unmapped :
    (request (withMem [(0x1000, 0x41)]) 0x4000FF00 0x1000).fault = 1 ∧
    (request (withMem [(0x1000, 0x41)]) 0x4000FF00 0x1000).seq.ph.code = 12 ∧
    (request (withMem [(0x1000, 0x41)]) 0x4000FF00 0x1000).trace.getLast? = some (.readAt 0x1001 none) := by decide
/-- 20_memory R64: each byte is what the memory holds when it is read. -/
theorem test_puts_reads_late :
    bare (request { withMem [(0x1000, 0x41)] with host := ⟨[], [[], [⟨0x1001, some 0⟩]]⟩ } 0x4000FF00 0x1000) =
      [openOk, rd 0x1000 0x41, w 0x22, w 0x26, w 0x22, w 0x0A, w 0x0E, w 0x0A, rd 0x1001 0, .closed, d .std,
       .responded .ok] := by decide
/-- V-SB-1. -/
theorem test_setbl_on :
    bare (request State.reset 0x50000001) = [openOk, w 0x80, .closed, .responded .ok] ∧
    (request State.reset 0x50000001).bl = 1 := by decide
/-- V-SB-4: the open answers ERR, and `BL` is not rolled back. -/
theorem test_setbl_open_fails :
    bare (request (failing 0 State.reset) 0x50000001) = [.opened 0 .err, .closed, .responded .busErrorOpen] ∧
    (request (failing 0 State.reset) 0x50000001).bl = 1 := by decide
/-- V-BL-1. -/
theorem test_blink_one :
    bare (request State.reset 0x60000001) =
      [openOk, w 0x80, .closed, d .blink, openOk, w 0x00, .closed, d .blink, .responded .ok] := by decide
/-- V-BL-5: the third write answers ERR (the sixth call). -/
theorem test_blink_third_write_fails :
    bare (request (failing 5 State.reset) 0x60000002) =
      [openOk, w 0x80, .closed, d .blink, openOk, w 0x00, .closed, d .blink, openOk, wErr 0x80, .closed,
       .responded .busErrorWrite] ∧
    (request (failing 5 State.reset) 0x60000002).bl = 1 ∧ (request (failing 5 State.reset) 0x60000002).errWidx = 3 := by
  decide
/-- V-CLR-2. -/
theorem test_clear_backlit :
    bare (request { State.reset with bl := 1 } 0x70000000) =
      [openOk, w 0x80, w 0x84, w 0x80, w 0x88, w 0x8C, w 0x88, .closed, d .clear, .responded .ok] := by decide
/-- V-CLR-3. -/
theorem test_clear_fourth_write_fails :
    bare (request (failing 4 State.reset) 0x70000000) =
      [openOk, w 0x00, w 0x04, w 0x00, wErr 0x08, .closed, .responded .busErrorWrite] := by decide
/-- 20 R58, 60 R235, 92 D30: the pins are the last byte written OK, the prefix byte and INITX bytes included; 60 R224,
R225: unknown after a failure. -/
theorem test_pins : (request State.reset 0x50000001).pins = some 0x80 ∧
    (request prefixed 0x10000000).pins = some 0x99 ∧
    (request (failing 1 (request State.reset 0x50000001)) 0x50000000).pins = none ∧
    (request (failing 0 (request State.reset 0x50000001)) 0x50000000).pins = none := by decide
/-- 40 R105, R106: while the wait after INITD's step 4 has not ended, CUR is still that step's value. -/
theorem test_cur_while_waiting :
    (request { State.reset with timer := ⟨[0, 0, 0], none⟩ } 0x20000000).seq.cur = 0x20 ∧
    (request { State.reset with timer := ⟨[0, 0, 0], none⟩ } 0x20000000).seq.issued = 0x28 := by decide
/-- 41 R133, row CLOSE: after a failed second write of a command the close leaves SUB 0. -/
theorem test_abort_close_sub :
    closePhase State.respondOk { State.reset with seq := { Seq.zero with ph := .close, step := 2, sub := .hiEh, abort := 1 } } =
      .go { State.reset with
        seq := { Seq.zero with ph := .resp, step := 2, abort := 1 }
        link := .indeterminate, status := .busErrorWrite, trace := [.closed] } := by rfl
/-- V-STALL-1: no answer, no event; the write counted once, and the next step changes nothing. -/
theorem test_stall :
    bare (request (stalling 2 State.reset) 0x70000000) = [openOk, w 0x00] ∧
    (request (stalling 2 State.reset) 0x70000000).errWidx = 2 ∧
    after (step (request (stalling 2 State.reset) 0x70000000)) = request (stalling 2 State.reset) 0x70000000 := by decide

/-! ### Memory -/

theorem test_memory_canonical :
    Memory.write (Memory.write [] 5 1) 3 2 = [(3, 2), (5, 1)] ∧ Memory.erase [(3, 2), (5, 1)] 3 = [(5, 1)] := by decide

/-! ### Witnesses: every statement's hypotheses can be met -/

/-- A block stuck in its first `BusOpen` of an INITD. -/
def stuckOpen : State := request (stalling 0 State.reset) 0x20000000
/-- A block stuck in the third write of an INITD. -/
def stuckWrite : State := request (stalling 3 State.reset) 0x20000000
/-- A block stuck in the first wait of an INITD. -/
def stuckWait : State := request { State.reset with timer := ⟨[], none⟩ } 0x20000000
/-- A block stuck in the wait after the close of a CLEAR. -/
def stuckTail : State := request { State.reset with timer := ⟨[], none⟩ } 0x70000000
/-- A block stuck in the wait of a BLINK. -/
def stuckBlink : State := request { State.reset with timer := ⟨[], none⟩ } 0x60000001
/-- A FAULTED block. -/
def faulted : State := request State.reset 0x4000FF00 0x1000
/-- A PUTS about to read, its buffer empty. -/
def reading : State :=
  { State.reset with req0 := 0x4000FF00, req1 := 0x1000, session := 1, seq := { Seq.zero with ph := .read } }
/-- A block in an INITD, at a phase and a step. -/
def inInitd (p : Phase) (k : BitVec 4) (sub : Sub) (v : Byte) : State :=
  { State.reset with req0 := 0x20000000, seq := { Seq.zero with ph := p, step := k, sub := sub, cur := v } }

theorem witness_encodeOfDecodedWords : decode 0x5000_0001 0 = .ok (.setbl 1) ∧
    decode 0x40FF0000 0xFFFFFFFF = .ok (.puts 0xFFFFFFFF 0 0xFF) := by decide
theorem witness_illegalWords_op : illegalWord 0x0000_0000 ∧ illegalWord 0x8000_0000 ∧ illegalWord 0xF000_0000 := by decide
theorem witness_illegalWords_fields : illegalWord 0x7000_0001 ∧ illegalWord 0x5000_0002 ∧ illegalWord 0x3001_0000 := by
  decide
theorem witness_legalWords : ¬ illegalWord 0x7000_0000 ∧ ¬ illegalWord 0x5000_0001 ∧ ¬ illegalWord 0x40FF_FF00 := by decide
theorem witness_requestLength : requestWords 0x3000_0000 = 1 ∧ requestWords 0x4000_0000 = 2 := by decide
theorem witness_stepServes : State.reset.seq.ph = .idle ∧ decodeTableWord 32 0x7000_0000 = some .clear ∧
    decode 0x7000_0000 0 = .ok .clear := by decide
theorem witness_idle : State.reset.seq.ph = .idle ∧ State.reset.host.queue = [] := by decide
theorem witness_busy : stuckOpen.seq.ph = .openBus ∧ stuckWait.seq.ph = .waitIn := by decide
theorem witness_busy_steps : ∃ t, step stuckOpen = .next t := ⟨_, rfl⟩
theorem witness_hostInputs : ∃ t, State.reset.seq.ph = .idle ∧ exec .clear State.reset = .next t := ⟨_, by decide, rfl⟩
theorem witness_layouts : Config.default.wf ∧ layoutL1.wf ∧ layoutL2.wf := by decide
theorem witness_command : State.reset.cfg.wf ∧ State.reset.seq.sub = .hiSet ∧ State.reset.seq.asked = 0 ∧
    State.reset.transport.allOk := by decide
theorem witness_completions : State.reset.seq.ph = .idle ∧ State.reset.transport.allOk ∧ State.reset.timer.live ∧
    State.reset.cfg.expanderInitSeq.length ≤ 255 ∧ State.reset.host.edits = [] ∧ State.reset.cfg.wf := by decide
/-- Count mode: one byte, and it is the terminator's value. -/
theorem witness_putsCount : (1 : Byte) ≠ 0 ∧ ([0] : List Byte).length = (1 : Byte).toNat ∧
    ∀ i b, ([0] : List Byte)[i]? = some b → (withMem [(0x1000, 0)]).bufferByte 0x1000 i = some b := by
  refine ⟨by decide, by decide, fun i b h => ?_⟩
  cases i with
  | zero => simp at h; subst h; decide
  | succ n => simp at h
/-- Terminator mode: one byte, then the terminator, across the top of the address space. -/
theorem witness_putsTerminator : ([0x41] : List Byte).length < 2 ^ 32 ∧
    (∀ i b, ([0x41] : List Byte)[i]? = some b →
      (withMem [(0, 0), (0xFFFFFFFF, 0x41)]).bufferByte 0xFFFFFFFF i = some b ∧ b ≠ 0) ∧
    (withMem [(0, 0), (0xFFFFFFFF, 0x41)]).bufferByte 0xFFFFFFFF 1 = some 0 := by
  refine ⟨by decide, fun i b h => ?_, by decide⟩
  cases i with
  | zero => simp at h; subst h; decide
  | succ n => simp at h
/-- Rows of INITD: open, prefix, a byte inside a command, the ends of steps 4, 9 and 10, the waits, the close, the
response. -/
theorem witness_initdRows :
    decode (inInitd .write 10 .loEl 0x0C).req0 (inInitd .write 10 .loEl 0x0C).req1 = .ok .initd ∧
    (inInitd .openBus 0 .hiSet 0).pend = .none ∧ State.reset.transport.draw = some (.ok, ⟨[], some .ok⟩) ∧
    initRom 10 = some ⟨0x0C, .nibble, .std⟩ ∧ Sub.endsCommand .loEl .nibble = true ∧ Sub.endsCommand .hiEl .byte = true ∧
    initRom 4 = some ⟨0x20, .byte, .std⟩ ∧ initRom 9 = some ⟨0x02, .nibble, .home⟩ ∧
    Sub.endsCommand .hiEl .nibble = false ∧ State.reset.timer.draw = some (0, ⟨[], some 0⟩) ∧
    stuckWait.pend ≠ .none ∧ (inInitd .close 10 .hiSet 0).seq.abort = 0 := by decide
/-- The rows of an abort: a failing open, prefix and write, and the close. -/
theorem witness_initdAbortRows :
    (∃ u, seqTick (failing 0 (inInitd .openBus 0 .hiSet 0)) = .go u) ∧
    (∃ u, seqTick (failing 0 (inInitd .preWrite 0 .hiSet 0)) = .go u) ∧
    (∃ u, seqTick (failing 0 (inInitd .write 10 .loEl 0x0C)) = .go u) := ⟨⟨_, rfl⟩, ⟨_, rfl⟩, ⟨_, rfl⟩⟩
theorem witness_initdAbortClose :
    let s := inInitd .close 2 .hiEh 0x30
    let s := { s with seq := { s.seq with abort := 1 } }
    decode s.req0 s.req1 = .ok .initd ∧ s.seq.ph = .close ∧ s.seq.abort = 1 := by decide
/-- The rows WAIT_TAIL and RESP: after step 10, and after an abort. -/
theorem witness_initdWaitTail :
    let s := { inInitd .waitTail 10 .hiSet 0x0C with pend := .std }
    decode s.req0 s.req1 = .ok .initd ∧ s.seq.ph = .waitTail ∧ s.seq.abort = 0 ∧ s.seq.asked = 0 ∧ s.pend ≠ .none ∧
    s.timer.draw = some (0, ⟨[], some 0⟩) := by decide
theorem witness_initdResp :
    let s := inInitd .resp 2 .hiSet 0x30
    let t := { s with seq := { s.seq with abort := 1 } }
    decode s.req0 s.req1 = .ok .initd ∧ s.seq.ph = .resp ∧ decode t.req0 t.req1 = .ok .initd ∧ t.seq.ph = .resp := by decide
theorem witness_initdDurations : Config.default.tPor1Us = 4100 ∧ Config.default.tShortUs = 100 ∧
    Config.default.tClearUs = 2000 ∧ Config.default.tHomeUs = 2000 := by decide
theorem witness_initdTime : ∃ t, exec .initd State.reset = .next t ∧ t.seq.ph = .idle ∧ t.status = .ok :=
  ⟨after (exec .initd State.reset), rfl, by decide, by decide⟩
theorem witness_cursorSet : (request State.reset 0x3000FE41).posOf ≠ 0xFF ∧ 0x80 ≤ (0x80 : Byte).toNat := by decide
theorem witness_bufferRead : decode reading.req0 reading.req1 = .ok (.puts 0x1000 0xFF 0) ∧ reading.seq.ph = .read ∧
    reading.host.edits = [] ∧ Memory.read reading.mem (bufferAddr 0x1000 reading.seq.idx).toNat = none := by decide
/-- A block in its first `BusOpen` of an INITD, which is about to fail. -/
def failingOpen : State := { stuckOpen with transport := ⟨[.err], none⟩ }
/-- A block in the third write of an INITD, which is about to fail. -/
def failingWrite : State := { stuckWrite with transport := ⟨[.err], none⟩ }
theorem witness_failedCall_open : Inv failingOpen ∧ failingOpen.seq.ph.calls = true ∧
    failingOpen.transport.draw = some (.err, ⟨[], none⟩) ∧ failingOpen.seq.ph = .openBus := by decide
theorem witness_failedCall_write : Inv failingWrite ∧ failingWrite.seq.ph.calls = true ∧
    failingWrite.transport.draw = some (.err, ⟨[], none⟩) ∧ failingWrite.seq.asked = 1 := by decide
theorem witness_failedOpen : (failing 0 State.reset).seq.ph = .idle ∧ (Instr.blink 1 ≠ .blink 0) ∧
    (failing 0 State.reset).transport.draw = some (.err, ⟨[], some .ok⟩) := by decide
theorem witness_faulted : faulted.seq.ph = .faulted ∧ faulted.fault = 1 := by decide
theorem witness_faultBit : ∃ t, (1 : Bit) = ({ State.reset with fault := 1 } : State).fault ∧
    step { State.reset with fault := 1 } = .next t := ⟨_, rfl, rfl⟩
theorem witness_exhausted :
    let s := { reading with seq := { reading.seq with ph := .write, sub := .loEl, rs := 1, idx := 0xFFFFFFFF } }
    decode s.req0 s.req1 = .ok (.puts 0x1000 0xFF 0) ∧ s.seq.ph = .write ∧ s.seq.sub = .loEl ∧ s.seq.rs = 1 ∧
    s.seq.idx = 0xFFFFFFFF ∧ s.transport.draw = some (.ok, ⟨[], some .ok⟩) := by
  decide
theorem witness_invariant_stuckWrite : Inv stuckWrite := by decide
theorem witness_invariant_faulted : Inv faulted := by decide
theorem witness_invariant_completed : Inv (request State.reset 0x70000000) := by decide
theorem witness_unanswered_open : Inv stuckOpen ∧ stuckOpen.seq.ph.calls = true ∧ stuckOpen.transport.draw = none := by decide
theorem witness_unanswered_waitIn : Inv stuckWait ∧ stuckWait.seq.ph = .waitIn ∧ stuckWait.timer.draw = none := by decide
theorem witness_unanswered_waitTail : Inv stuckTail ∧ stuckTail.seq.ph = .waitTail ∧ stuckTail.timer.draw = none := by decide
theorem witness_unanswered_blWait : Inv stuckBlink ∧ stuckBlink.seq.ph = .blWait ∧ stuckBlink.timer.draw = none := by decide
theorem witness_invariant_steps : ∃ t, step stuckWrite = .next t := ⟨_, rfl⟩
theorem witness_initdStep : Config.default.wf ∧ 1 ≤ (1 : BitVec 4).toNat ∧ (10 : BitVec 4).toNat ≤ 10 := by decide
theorem witness_setbl : ∃ t, exec (.setbl 1) (failing 1 State.reset) = .next t := ⟨_, rfl⟩
/-- A SETBL whose write fails, then two requests that do not set the backlight. -/
theorem witness_setbl_later :
    let s := { failing 1 State.reset with host := ⟨[⟨0x70000000, 0⟩, ⟨0x3000FF41, 0⟩], []⟩ }
    ((exec (.setbl 1) s |> after |> stepsTo 2).map fun u => (u.bl, u.trace.length)) = some (1, 24) ∧
    ∀ r ∈ s.host.queue, (match decode r.w0 r.w1 with | .ok j => setsBacklight j | .error _ => false) = false := by decide
theorem witness_otherRequests : (∀ on, Instr.clear ≠ .setbl on) ∧ (∀ n, Instr.clear ≠ .blink n) ∧
    (∀ b p l, Instr.clear ≠ .puts b p l) ∧ ∃ t, exec .clear State.reset = .next t :=
  ⟨fun _ h => (by cases h), fun _ h => (by cases h), fun _ _ _ h => (by cases h), ⟨_, rfl⟩⟩
theorem witness_seqTick : ∃ t, seqTick (inInitd .write 1 .hiSet 0x30) = .go t := ⟨_, rfl⟩
theorem witness_seqTick_halts : ∃ t, seqTick (inInitd .resp 10 .hiSet 0x0C) = .halt t := ⟨_, rfl⟩
theorem witness_emptyTrace : unusedClear State.reset.cfg State.reset.trace ∧ waitsLongEnough State.reset.cfg State.reset.trace :=
  ⟨fun _ _ h => (by cases h), fun _ _ h => (by cases h)⟩
theorem witness_outcomes :
    (after (exec .initd State.reset)).status = .ok ∧ (after (exec .initd State.reset)).seq.ph = .idle ∧
    (after (exec .initd (failing 5 State.reset))).status = .busErrorWrite ∧
    (after (exec .initd (failing 5 State.reset))).seq.ph = .idle := by decide

end Sys2Proof.Tests
end

section
/-! PROOFS. Which configurations a block is constructed from, and the one position a layout leaves free (spec 00_scope
R7, R8). Both halves of the latter count: seven positions cannot name all eight, and seven distinct ones leave one. -/

namespace Sys2Proof

/-- The eight bit positions of a PortByte (00_scope R7), in the order `Config.cfgUnused` searches them. -/
def allPos : List Pos := [0, 1, 2, 3, 4, 5, 6, 7]

theorem mem_allPos : ∀ k : Pos, k ∈ allPos := by decide

theorem nodup_allPos : allPos.Nodup := by decide

theorem length_le_eight_of_nodup {l : List Pos} (h : l.Nodup) : l.length ≤ 8 :=
  (h.subperm fun k _ => mem_allPos k).length_le

theorem exists_pos_notMem_of_length_lt {l : List Pos} (h : l.length < 8) : ∃ k, k ∉ l := by
  by_contra hall
  push Not at hall
  have hle : allPos.length ≤ l.length := (nodup_allPos.subperm fun k _ => hall k).length_le
  exact absurd h (Nat.not_lt.mpr hle)

@[simp] theorem Config.length_positions (c : Config) : c.positions.length = 7 := rfl

/-- No line stands at `CFG_UNUSED`, even in a layout whose positions repeat: seven never name all eight. -/
theorem Config.cfgUnused_notMem_positions (c : Config) : c.cfgUnused ∉ c.positions := by
  obtain ⟨k, hk⟩ : ∃ k, k ∉ c.positions := exists_pos_notMem_of_length_lt (by simp)
  have hfound : (allPos.find? fun k => !c.positions.contains k).isSome := by
    rw [List.find?_isSome]
    exact ⟨k, mem_allPos k, by simpa using hk⟩
  have hfree := List.find?_some (Option.some_get hfound).symm
  rw [Config.cfgUnused, ← allPos, ← Option.get_eq_getD (h := hfound)]
  simpa using hfree

/-- A second free position would make nine distinct ones. -/
theorem Config.eq_cfgUnused_of_notMem {c : Config} (hc : c.positions.Nodup) {k : Pos} (hk : k ∉ c.positions) :
    k = c.cfgUnused := by
  by_contra hne
  have hnine : (k :: c.cfgUnused :: c.positions).Nodup := by
    simp [hne, hk, c.cfgUnused_notMem_positions, hc]
  have hle := length_le_eight_of_nodup hnine
  simp at hle

theorem Config.notMem_positions_iff {c : Config} (hc : c.positions.Nodup) (k : Pos) :
    k ∉ c.positions ↔ k = c.cfgUnused :=
  ⟨Config.eq_cfgUnused_of_notMem hc, fun h => h ▸ c.cfgUnused_notMem_positions⟩

end Sys2Proof

namespace Sys2Proof.Machine

theorem State.construct_eq_some_iff (c : Config) (s : State) :
    State.construct c = some s ↔ c.wf ∧ s = State.constructed c := by
  simp [State.construct, eq_comm]

theorem State.isSome_construct_iff (c : Config) : (State.construct c).isSome = true ↔ c.wf := by
  simp [Option.isSome_iff_exists, State.construct_eq_some_iff]

/-- Settles O12: construction checks exactly `Config.wf`, and a well-formed layout leaves `CFG_UNUSED` alone free. -/
theorem constructionNeedsDistinctPositions : Obligations.ConstructionNeedsDistinctPositions := by
  intro c
  refine ⟨State.isSome_construct_iff c, fun s hs => ?_, fun ⟨hdistinct, _⟩ => Config.notMem_positions_iff hdistinct⟩
  exact ((State.construct_eq_some_iff c s).mp hs).2

end Sys2Proof.Machine
end

section
/-! PROOFS. The host's queue and the latches (spec 20_memory R63). The block is run beside itself with another queue
presented: every operation keeps the two runs alike, and keeps the request in the latches. -/

namespace Sys2Proof.Machine

open Sys2Proof

/-! ### Two states alike but for the host's queue -/

/-- `s` with other requests presented by the host. -/
def State.withQueue (q : List Request) (s : State) : State := { s with host := { s.host with queue := q } }

/-- The words in the latches. -/
def State.latched (s : State) : Request := ⟨s.req0, s.req1⟩

/-- `t` is `s` with `q` presented, and `r` is the request in the latches of both. -/
structure Alike (r : Request) (q : List Request) (s t : State) : Prop where
  eq_withQueue : t = s.withQueue q
  latched_eq : s.latched = r

/-- The update `f` neither reads nor writes the host's queue, and keeps the latches. -/
def IgnoresHost (f : State → State) : Prop :=
  ∀ ⦃r q s t⦄, Alike r q s t → Alike r q (f s) (f t)

/-- Two moves of one kind, to states alike. -/
inductive Move.Alike (r : Request) (q : List Request) : Move → Move → Prop where
  | go {s t : State} (h : Machine.Alike r q s t) : Move.Alike r q (.go s) (.go t)
  | halt {s t : State} (h : Machine.Alike r q s t) : Move.Alike r q (.halt s) (.halt t)
  | refused (why : Refusal) : Move.Alike r q (.refused why) (.refused why)

/-- The primitive `tick` neither reads nor writes the host's queue, and keeps the latches. -/
def TickIgnoresHost (tick : State → Move) : Prop :=
  ∀ ⦃r q s t⦄, Alike r q s t → (tick s).Alike r q (tick t)

section
variable {r : Request} {q : List Request} {s t : State} (h : Alike r q s t)
include h

theorem Alike.seq_eq : t.seq = s.seq := by
  rw [h.eq_withQueue]; rfl

theorem Alike.ph_eq : t.seq.ph = s.seq.ph := by rw [h.seq_eq]

end

theorem alike_self (s : State) : Alike s.latched s.host.queue s s := ⟨rfl, rfl⟩

/-! ### How such updates and primitives are put together -/

/-- An update of fields other than the queue and the latches, by values read elsewhere than in the queue. -/
theorem ignoresHost_of_eq {f : State → State}
    (hqueue : ∀ q s, f (s.withQueue q) = (f s).withQueue q) (hlatched : ∀ s, (f s).latched = s.latched) :
    IgnoresHost f := by
  rintro r q s _ ⟨rfl, rfl⟩
  exact ⟨hqueue q s, hlatched s⟩

theorem IgnoresHost.comp {f g : State → State} (hf : IgnoresHost f) (hg : IgnoresHost g) :
    IgnoresHost fun s => f (g s) :=
  fun _ _ _ _ h => hf (hg h)

theorem IgnoresHost.ite {c : State → Prop} {_ : DecidablePred c} {f g : State → State}
    (hc : ∀ q s, c (s.withQueue q) = c s) (hf : IgnoresHost f) (hg : IgnoresHost g) :
    IgnoresHost fun s => if c s then f s else g s := by
  rintro r q s _ ⟨rfl, hr⟩
  simp only [hc]
  split
  · exact hf ⟨rfl, hr⟩
  · exact hg ⟨rfl, hr⟩

theorem IgnoresHost.go {f : State → State} (hf : IgnoresHost f) : TickIgnoresHost fun s => .go (f s) :=
  fun _ _ _ _ h => .go (hf h)

theorem IgnoresHost.halt {f : State → State} (hf : IgnoresHost f) : TickIgnoresHost fun s => .halt (f s) :=
  fun _ _ _ _ h => .halt (hf h)

theorem TickIgnoresHost.comp {tick : State → Move} {f : State → State} (ht : TickIgnoresHost tick)
    (hf : IgnoresHost f) : TickIgnoresHost fun s => tick (f s) :=
  fun _ _ _ _ h => ht (hf h)

theorem TickIgnoresHost.ite {c : State → Prop} {_ : DecidablePred c} {f g : State → Move}
    (hc : ∀ q s, c (s.withQueue q) = c s) (hf : TickIgnoresHost f) (hg : TickIgnoresHost g) :
    TickIgnoresHost fun s => if c s then f s else g s := by
  rintro r q s _ ⟨rfl, hr⟩
  simp only [hc]
  split
  · exact hf ⟨rfl, hr⟩
  · exact hg ⟨rfl, hr⟩

/-- A primitive whose parameter is read from the state, elsewhere than in the queue. -/
theorem TickIgnoresHost.param {α : Type} {p : State → α} {k : α → State → Move}
    (hp : ∀ q s, p (s.withQueue q) = p s) (hk : ∀ a, TickIgnoresHost (k a)) :
    TickIgnoresHost fun s => k (p s) s := by
  rintro r q s _ ⟨rfl, hr⟩
  simp only [hp]
  exact hk (p s) ⟨rfl, hr⟩

/-! ### The shared operations -/

theorem goto_ignoresHost (p : Phase) : IgnoresHost fun s => s.goto p :=
  ignoresHost_of_eq (fun _ _ => rfl) fun _ => rfl

theorem log_ignoresHost (e : Event) : IgnoresHost fun s => s.log e :=
  ignoresHost_of_eq (fun _ _ => rfl) fun _ => rfl

theorem raiseBusError_ignoresHost (stage : ErrStage) : IgnoresHost (State.raiseBusError stage) :=
  ignoresHost_of_eq (fun _ _ => rfl) fun _ => rfl

theorem abortClosed_ignoresHost : IgnoresHost State.abortClosed :=
  ignoresHost_of_eq (fun _ _ => rfl) fun _ => rfl

theorem raiseBufFault_ignoresHost : IgnoresHost State.raiseBufFault :=
  ignoresHost_of_eq (fun _ _ => rfl) fun _ => rfl

theorem enterSession_ignoresHost : IgnoresHost State.enterSession :=
  ignoresHost_of_eq (fun _ _ => rfl) fun _ => rfl

theorem countWrite_ignoresHost : IgnoresHost State.countWrite :=
  ignoresHost_of_eq (fun _ _ => rfl) fun _ => rfl

theorem respondOk_ignoresHost : IgnoresHost State.respondOk :=
  ignoresHost_of_eq (fun _ _ => rfl) fun _ => rfl

theorem endSession_ignoresHost : IgnoresHost State.endSession :=
  ignoresHost_of_eq (fun _ _ => rfl) fun _ => rfl

theorem startCommand_ignoresHost : IgnoresHost State.startCommand :=
  ignoresHost_of_eq (fun _ _ => rfl) fun _ => rfl

theorem issueCommand_ignoresHost (v : Byte) (rs : Bit) : IgnoresHost (State.issueCommand v rs) :=
  ignoresHost_of_eq (fun _ _ => rfl) fun _ => rfl

theorem backlightStep_ignoresHost (on : Bit) : IgnoresHost (State.backlightStep on) :=
  ignoresHost_of_eq (fun _ _ => rfl) fun _ => rfl

theorem setPend_ignoresHost (cls : DelayClass) : IgnoresHost fun s => { s with pend := cls } :=
  ignoresHost_of_eq (fun _ _ => rfl) fun _ => rfl

/-- `SEQ` is the block's own register: an update of it by itself concerns neither the queue nor the latches. -/
theorem setSeq_ignoresHost (f : Seq → Seq) : IgnoresHost fun s => { s with seq := f s.seq } :=
  ignoresHost_of_eq (fun _ _ => rfl) fun _ => rfl

theorem called_ignoresHost {onCall : State → State} (h : IgnoresHost onCall) : IgnoresHost (State.called onCall) :=
  .ite (fun _ _ => rfl) (fun _ _ _ _ h => h) ((setSeq_ignoresHost fun q => { q with asked := 1 }).comp h)

theorem answered_ignoresHost (tape : Tape Answer) : IgnoresHost (State.answered tape) :=
  ignoresHost_of_eq (fun _ _ => rfl) fun _ => rfl

/-- The host's changes of the buffer are taken from `edits`, whatever the queue holds. -/
theorem hostEdits_ignoresHost : IgnoresHost State.hostEdits := by
  refine ignoresHost_of_eq (fun q s => ?_) (fun s => ?_)
  · rcases h : s.host.edits with _ | ⟨es, rest⟩ <;> simp [State.hostEdits, State.withQueue, h]
  · rcases s.hostEdits_cases with h | ⟨es, rest, -, h⟩ <;> rw [h]
    rfl

theorem afterByte_ignoresHost (mode : Mode) {atEnd : State → State} (h : IgnoresHost atEnd) :
    IgnoresHost (State.afterByte mode atEnd) := by
  have hsub (sub : Sub) : IgnoresHost fun s => { s with seq := { s.seq with sub := sub } } :=
    setSeq_ignoresHost fun q => { q with sub := sub }
  intro r q s t hst
  have hsame : t.seq.sub = s.seq.sub := by rw [hst.seq_eq]
  unfold State.afterByte
  rw [hsame]
  cases s.seq.sub <;> cases mode
  case hiEl.byte | loEl.byte | loEl.nibble => exact h.comp (hsub .hiSet) hst
  all_goals exact hsub _ hst

theorem finishCommands_ignoresHost {done : State → State} (h : IgnoresHost done) :
    IgnoresHost (State.finishCommands done) :=
  .ite (fun _ _ => rfl) h (goto_ignoresHost .waitTail)

/-! ### The primitives -/

theorem busCall_ignoresHost {onCall : State → State} {k : Answer → State → Move} (hcall : IgnoresHost onCall)
    (hk : ∀ a, TickIgnoresHost (k a)) : TickIgnoresHost (busCall onCall k) := by
  intro r q s t h
  have hcalled := called_ignoresHost hcall h
  have hdraw : t.transport.draw = s.transport.draw := by rw [h.eq_withQueue]; rfl
  unfold busCall
  rw [hdraw]
  rcases s.transport.draw with _ | ⟨a, tape⟩
  · exact .halt hcalled
  · exact hk a (answered_ignoresHost tape hcalled)

theorem busOpen_ignoresHost {next : State → State} (h : IgnoresHost next) : TickIgnoresHost (busOpen next) := by
  refine busCall_ignoresHost enterSession_ignoresHost fun a => ?_
  have hlog : IgnoresHost fun s => s.log (.opened s.cfg.devAddr a) :=
    ignoresHost_of_eq (fun _ _ => rfl) fun _ => rfl
  cases a with
  | ok => exact (h.comp hlog).go
  | err => exact ((raiseBusError_ignoresHost .opening).comp hlog).go

theorem put_ignoresHost (b : Byte) (kind : WriteKind) {next : State → State} (h : IgnoresHost next) :
    TickIgnoresHost (put b kind next) := by
  refine busCall_ignoresHost countWrite_ignoresHost fun a => ?_
  have hlog : IgnoresHost fun s => { s.log (.wrote b kind a) with pins := pinsAfter b a } :=
    ignoresHost_of_eq (fun _ _ => rfl) fun _ => rfl
  cases a with
  | ok => exact (h.comp hlog).go
  | err => exact ((raiseBusError_ignoresHost .writing).comp hlog).go

theorem waitFor_ignoresHost (c : DelayClass) {next : State → State} (h : IgnoresHost next) :
    TickIgnoresHost (waitFor c next) := by
  intro r q s t hst
  have hdraw : t.timer.draw = s.timer.draw := by rw [hst.eq_withQueue]; rfl
  unfold waitFor
  rw [hdraw]
  rcases s.timer.draw with _ | ⟨late, tape⟩
  · exact .halt hst
  · have hlog : IgnoresHost fun s => { s with timer := tape }.log (.delayed c (duration s.cfg c + late)) :=
      ignoresHost_of_eq (fun _ _ => rfl) fun _ => rfl
    exact (h.comp hlog).go hst

theorem memRead_ignoresHost (addr : Word) {onByte : Option Byte → State → Move}
    (h : ∀ v, TickIgnoresHost (onByte v)) : TickIgnoresHost (memRead addr onByte) := by
  have hread : TickIgnoresHost fun s => onByte (Memory.read s.mem addr.toNat)
      (s.log (.readAt addr (Memory.read s.mem addr.toNat))) :=
    .param (p := fun s => Memory.read s.mem addr.toNat) (k := fun v s => onByte v (s.log (.readAt addr v)))
      (fun _ _ => rfl) fun v => (h v).comp (log_ignoresHost _)
  exact hread.comp hostEdits_ignoresHost

/-! ### The phases -/

theorem respPhase_ignoresHost : TickIgnoresHost respPhase :=
  IgnoresHost.halt (ignoresHost_of_eq (fun _ _ => rfl) fun _ => rfl)

theorem openPhase_ignoresHost {first : State → State} (h : IgnoresHost first) : TickIgnoresHost (openPhase first) :=
  busOpen_ignoresHost (.ite (fun _ _ => rfl) (goto_ignoresHost .preWrite) h)

theorem prePhase_ignoresHost {first : State → State} (h : IgnoresHost first) : TickIgnoresHost (prePhase first) :=
  .param (p := fun s => s.cfg.gpioReg) (fun _ _ => rfl) fun b => put_ignoresHost b .pre h

theorem closePhase_ignoresHost {after : State → State} (h : IgnoresHost after) : TickIgnoresHost (closePhase after) :=
  IgnoresHost.go <| .ite (fun _ _ => rfl) (abortClosed_ignoresHost.comp endSession_ignoresHost)
    (h.comp endSession_ignoresHost)

theorem waitInPhase_ignoresHost : TickIgnoresHost waitInPhase :=
  .ite (fun _ _ => rfl) startCommand_ignoresHost.go (.param (p := fun s => s.pend) (fun _ _ => rfl) fun c =>
    waitFor_ignoresHost c (startCommand_ignoresHost.comp (setPend_ignoresHost .none)))

theorem writePhase_ignoresHost (mode : Mode) (cls : DelayClass) {atEnd : State → State} (h : IgnoresHost atEnd) :
    TickIgnoresHost (writePhase mode cls atEnd) :=
  .param (p := State.writerByteOf) (fun _ _ => rfl) fun b =>
    put_ignoresHost b .port (afterByte_ignoresHost mode (h.comp (setPend_ignoresHost cls)))

theorem waitTailPhase_ignoresHost {done : State → State} (h : IgnoresHost done) :
    TickIgnoresHost (waitTailPhase done) :=
  .ite (fun _ _ => rfl) h.go (.param (p := fun s => s.pend) (fun _ _ => rfl) fun c =>
    waitFor_ignoresHost c (h.comp (setPend_ignoresHost .none)))

theorem blWritePhase_ignoresHost : TickIgnoresHost blWritePhase :=
  .param (p := fun s => backlightByte s.cfg s.bl) (fun _ _ => rfl) fun b =>
    put_ignoresHost b .port (goto_ignoresHost .close)

/-! ### The requests' own updates -/

theorem blinkLoop_ignoresHost : IgnoresHost blinkLoop :=
  .ite (fun _ _ => rfl) respondOk_ignoresHost
    ((backlightStep_ignoresHost 1).comp (setSeq_ignoresHost fun q => { q with half := 0 }))

theorem blinkStart_ignoresHost : IgnoresHost blinkStart :=
  blinkLoop_ignoresHost.comp (ignoresHost_of_eq (fun _ _ => rfl) fun _ => rfl)

theorem blinkNext_ignoresHost : IgnoresHost blinkNext :=
  .ite (fun _ _ => rfl) ((backlightStep_ignoresHost 0).comp (setSeq_ignoresHost fun q => { q with half := 1 }))
    (blinkLoop_ignoresHost.comp (setSeq_ignoresHost fun q => { q with cnt := q.cnt - 1 }))

theorem putcChar_ignoresHost : IgnoresHost putcChar :=
  ignoresHost_of_eq (fun _ _ => rfl) fun _ => rfl

theorem cursorSet_ignoresHost : IgnoresHost fun s => s.issueCommand (cursorSet s.posOf) 0 :=
  ignoresHost_of_eq (fun _ _ => rfl) fun _ => rfl

theorem putcFirst_ignoresHost : IgnoresHost putcFirst :=
  .ite (fun _ _ => rfl) putcChar_ignoresHost cursorSet_ignoresHost

theorem putcNext_ignoresHost : IgnoresHost putcNext :=
  .ite (fun _ _ => rfl) putcChar_ignoresHost (goto_ignoresHost .close)

theorem putsLoop_ignoresHost : IgnoresHost putsLoop :=
  .ite (fun _ _ => rfl) (goto_ignoresHost .close) (goto_ignoresHost .read)

theorem putsFirst_ignoresHost : IgnoresHost putsFirst :=
  .ite (fun _ _ => rfl) putsLoop_ignoresHost cursorSet_ignoresHost

theorem putsByte_ignoresHost (v : Option Byte) : TickIgnoresHost (putsByte v) := by
  cases v with
  | none => exact raiseBufFault_ignoresHost.halt
  | some c => exact .ite (fun _ _ => rfl) (goto_ignoresHost .close).go (issueCommand_ignoresHost c 1).go

theorem putsNext_ignoresHost : IgnoresHost putsNext :=
  .ite (fun _ _ => rfl) putsLoop_ignoresHost (.ite (fun _ _ => rfl) raiseBufFault_ignoresHost
    (putsLoop_ignoresHost.comp (setSeq_ignoresHost fun q => { q with idx := q.idx + 1 })))

theorem initxLoop_ignoresHost : IgnoresHost initxLoop :=
  .ite (fun _ _ => rfl) (goto_ignoresHost .raw) (goto_ignoresHost .close)

theorem initxNext_ignoresHost : IgnoresHost initxNext :=
  initxLoop_ignoresHost.comp (setSeq_ignoresHost fun q => { q with idx := q.idx + 1 })

theorem initdStep_ignoresHost (k : BitVec 4) : IgnoresHost (initdStep k) := by
  unfold initdStep
  split
  · next row _ => exact (issueCommand_ignoresHost row.value 0).comp (setSeq_ignoresHost fun q => { q with step := k })
  · exact goto_ignoresHost .close

theorem initdNext_ignoresHost : IgnoresHost initdNext := by
  intro r q s t h
  unfold initdNext
  rw [h.seq_eq]
  exact initdStep_ignoresHost (s.seq.step + 1) h

theorem initdDone_ignoresHost : IgnoresHost initdDone :=
  ignoresHost_of_eq (fun _ _ => rfl) fun _ => rfl

/-! ### The requests' sequencers, phase by phase -/

theorem setblTick_ignoresHost : TickIgnoresHost setblTick := by
  intro r q s t h
  unfold setblTick
  rw [h.ph_eq]
  cases s.seq.ph
  case openBus => exact openPhase_ignoresHost (goto_ignoresHost .blWrite) h
  case preWrite => exact prePhase_ignoresHost (goto_ignoresHost .blWrite) h
  case blWrite => exact blWritePhase_ignoresHost h
  case close => exact closePhase_ignoresHost respondOk_ignoresHost h
  case resp => exact respPhase_ignoresHost h
  all_goals exact .refused .unreachableSeq

theorem blinkTick_ignoresHost : TickIgnoresHost blinkTick := by
  intro r q s t h
  unfold blinkTick
  rw [h.ph_eq]
  cases s.seq.ph
  case openBus => exact openPhase_ignoresHost (goto_ignoresHost .blWrite) h
  case preWrite => exact prePhase_ignoresHost (goto_ignoresHost .blWrite) h
  case blWrite => exact blWritePhase_ignoresHost h
  case close => exact closePhase_ignoresHost (goto_ignoresHost .blWait) h
  case blWait => exact waitFor_ignoresHost .blink blinkNext_ignoresHost h
  case resp => exact respPhase_ignoresHost h
  all_goals exact .refused .unreachableSeq

theorem clearTick_ignoresHost : TickIgnoresHost clearTick := by
  have hfirst : IgnoresHost clearFirst := issueCommand_ignoresHost 0x01 0
  intro r q s t h
  unfold clearTick
  rw [h.ph_eq]
  cases s.seq.ph
  case openBus => exact openPhase_ignoresHost hfirst h
  case preWrite => exact prePhase_ignoresHost hfirst h
  case write => exact writePhase_ignoresHost .nibble .clear (goto_ignoresHost .close) h
  case waitIn => exact waitInPhase_ignoresHost h
  case close => exact closePhase_ignoresHost (finishCommands_ignoresHost respondOk_ignoresHost) h
  case waitTail => exact waitTailPhase_ignoresHost respondOk_ignoresHost h
  case resp => exact respPhase_ignoresHost h
  all_goals exact .refused .unreachableSeq

theorem putcTick_ignoresHost : TickIgnoresHost putcTick := by
  intro r q s t h
  unfold putcTick
  rw [h.ph_eq]
  cases s.seq.ph
  case openBus => exact openPhase_ignoresHost putcFirst_ignoresHost h
  case preWrite => exact prePhase_ignoresHost putcFirst_ignoresHost h
  case write => exact writePhase_ignoresHost .nibble .std putcNext_ignoresHost h
  case waitIn => exact waitInPhase_ignoresHost h
  case close => exact closePhase_ignoresHost (finishCommands_ignoresHost respondOk_ignoresHost) h
  case waitTail => exact waitTailPhase_ignoresHost respondOk_ignoresHost h
  case resp => exact respPhase_ignoresHost h
  all_goals exact .refused .unreachableSeq

theorem putsTick_ignoresHost : TickIgnoresHost putsTick := by
  have hread : TickIgnoresHost fun s => memRead (bufferAddr s.bufOf s.seq.idx) putsByte s :=
    .param (p := fun s => bufferAddr s.bufOf s.seq.idx) (fun _ _ => rfl) fun addr =>
      memRead_ignoresHost addr putsByte_ignoresHost
  intro r q s t h
  unfold putsTick
  rw [h.ph_eq]
  cases s.seq.ph
  case openBus => exact openPhase_ignoresHost putsFirst_ignoresHost h
  case preWrite => exact prePhase_ignoresHost putsFirst_ignoresHost h
  case write => exact writePhase_ignoresHost .nibble .std putsNext_ignoresHost h
  case waitIn => exact waitInPhase_ignoresHost h
  case read => exact hread h
  case close => exact closePhase_ignoresHost (finishCommands_ignoresHost respondOk_ignoresHost) h
  case waitTail => exact waitTailPhase_ignoresHost respondOk_ignoresHost h
  case resp => exact respPhase_ignoresHost h
  case faulted => exact .halt h
  all_goals exact .refused .unreachableSeq

theorem initxTick_ignoresHost : TickIgnoresHost initxTick := by
  intro r q s t h
  unfold initxTick
  rw [h.ph_eq]
  cases s.seq.ph
  case openBus => exact openPhase_ignoresHost initxLoop_ignoresHost h
  case preWrite => exact prePhase_ignoresHost initxLoop_ignoresHost h
  case raw =>
    have hbyte : t.cfg.expanderInitSeq[s.seq.idx.toNat]? = s.cfg.expanderInitSeq[s.seq.idx.toNat]? := by
      rw [h.eq_withQueue]; rfl
    rw [h.seq_eq, hbyte]
    rcases s.cfg.expanderInitSeq[s.seq.idx.toNat]? with _ | b
    · exact .refused .unreachableSeq
    · exact put_ignoresHost b .raw initxNext_ignoresHost h
  case close => exact closePhase_ignoresHost respondOk_ignoresHost h
  case resp => exact respPhase_ignoresHost h
  all_goals exact .refused .unreachableSeq

theorem initdTick_ignoresHost : TickIgnoresHost initdTick := by
  intro r q s t h
  unfold initdTick
  rw [h.ph_eq]
  cases s.seq.ph
  case openBus => exact openPhase_ignoresHost (initdStep_ignoresHost 1) h
  case preWrite => exact prePhase_ignoresHost (initdStep_ignoresHost 1) h
  case write =>
    rw [h.seq_eq]
    rcases initRom s.seq.step with _ | row
    · exact .refused .unreachableSeq
    · exact writePhase_ignoresHost row.mode row.cls initdNext_ignoresHost h
  case waitIn => exact waitInPhase_ignoresHost h
  case close => exact closePhase_ignoresHost (finishCommands_ignoresHost initdDone_ignoresHost) h
  case waitTail => exact waitTailPhase_ignoresHost initdDone_ignoresHost h
  case resp => exact respPhase_ignoresHost h
  all_goals exact .refused .unreachableSeq

theorem tickOf_ignoresHost (i : Instr) : TickIgnoresHost (tickOf i) := by
  cases i with
  | initx => exact initxTick_ignoresHost
  | initd => exact initdTick_ignoresHost
  | putc val pos => exact putcTick_ignoresHost
  | puts buf pos len => exact putsTick_ignoresHost
  | setbl on => exact setblTick_ignoresHost
  | blink count => exact blinkTick_ignoresHost
  | clear => exact clearTick_ignoresHost

/-- A busy block decodes its latches, which the host does not reach. -/
theorem seqTick_ignoresHost : TickIgnoresHost seqTick := by
  intro r q s t h
  have hdecode : decode t.req0 t.req1 = decode s.req0 s.req1 := by rw [h.eq_withQueue]; rfl
  unfold seqTick
  rw [hdecode]
  rcases decode s.req0 s.req1 with e | i
  · exact .refused .unreachableSeq
  · exact tickOf_ignoresHost i h

/-! ### The run and the step -/

/-- Two runs from states alike end together, in states alike. -/
theorem run_alike {tick : State → Move} (htick : TickIgnoresHost tick) {r : Request} {q : List Request} (n : Nat)
    {s t s' : State} (h : Alike r q s t) (hrun : run tick n s = .next s') :
    ∃ t', run tick n t = .next t' ∧ Alike r q s' t' := by
  induction n generalizing s t with
  | zero =>
    cases hrun
    exact ⟨t, rfl, h⟩
  | succ n ih =>
    have hmove := htick h
    generalize hs : tick s = ms, ht : tick t = mt at hmove
    cases hmove with
    | go h' =>
      rw [run_go hs] at hrun
      rw [run_go ht]
      exact ih h' hrun
    | halt h' =>
      rw [run_halt hs] at hrun
      cases hrun
      exact ⟨_, run_halt ht n, h'⟩
    | refused why =>
      rw [run_refused hs] at hrun
      cases hrun

/-- The request in the latches stays there through a run. -/
theorem run_latched {tick : State → Move} (htick : TickIgnoresHost tick) {n : Nat} {s s' : State}
    (hrun : run tick n s = .next s') : s'.latched = s.latched := by
  obtain ⟨_, -, h⟩ := run_alike htick n (alike_self s) hrun
  exact h.latched_eq

/-- The first assignments of each request. -/
def startOf : Instr → State → State
  | .initx => initxStart
  | .initd => initdStart
  | .putc _ _ => putcStart
  | .puts _ _ _ => putsStart
  | .setbl _ => setblStart
  | .blink _ => blinkStart
  | .clear => clearStart

theorem exec_eq_serve (i : Instr) (s : State) : exec i s = serve (startOf i) (tickOf i) (encode i) s := by
  cases i <;> rfl

theorem startOf_ignoresHost (i : Instr) : IgnoresHost (startOf i) := by
  cases i
  case blink => exact blinkStart_ignoresHost
  all_goals exact ignoresHost_of_eq (fun _ _ => rfl) fun _ => rfl

/-- Whatever becomes of a request, the latches hold what its acceptance put there. -/
theorem exec_latched {i : Instr} {s t : State} (hidle : s.seq.ph = .idle) (h : exec i s = .next t) :
    t.latched = (s.latch (encode i)).latched := by
  rw [exec_eq_serve, serve_idle hidle] at h
  calc t.latched = (startOf i (s.accept (encode i))).latched := run_latched (tickOf_ignoresHost i) h
    _ = (s.accept (encode i)).latched := (startOf_ignoresHost i (alike_self _)).latched_eq
    _ = (s.latch (encode i)).latched := rfl

theorem step_faulted {s : State} (h : s.seq.ph = .faulted) : step s = .fault .bufFault := by
  simp [step, h]

theorem step_busy {s : State} (hidle : s.seq.ph ≠ .idle) (hfaulted : s.seq.ph ≠ .faulted) : step s = proceed s := by
  unfold step
  split
  · contradiction
  · contradiction
  all_goals rfl

theorem step_withQueue {s t : State} (q : List Request) (hidle : s.seq.ph ≠ .idle) (h : step s = .next t) :
    step (s.withQueue q) = .next (t.withQueue q) := by
  have hfaulted : s.seq.ph ≠ .faulted := fun hph => by simp [step_faulted hph] at h
  rw [step_busy hidle hfaulted] at h
  obtain ⟨t', hrun, ht'⟩ := run_alike seqTick_ignoresHost (r := s.latched) (q := q) maxPrimitives ⟨rfl, rfl⟩ h
  rw [step_busy (s := s.withQueue q) hidle hfaulted, proceed, hrun, ht'.eq_withQueue]

/-- Settles O10: the latches keep what acceptance put there, and a busy block's run never reads the host's queue. -/
theorem hostInputsIgnoredWhileBusy : Obligations.HostInputsIgnoredWhileBusy := by
  refine ⟨fun s i t hidle h => ?_, fun s t q hbusy h => step_withQueue q hbusy h⟩
  obtain ⟨h0, h1⟩ := Request.mk.inj (exec_latched hidle h)
  refine ⟨h0, fun htwo => ?_⟩
  rw [h1, State.latch_req1, if_pos htwo]

end Sys2Proof.Machine
end

section
/-! PROOFS. The assembler's pseudo-requests (spec 30_encoding R90): the operand an expansion supplies always fits, so the
line is refused exactly where its expansion is. -/

namespace Sys2Proof

@[simp] theorem AsmNum.value_dec (n : Nat) : (AsmNum.dec n).value = n := rfl

@[simp] theorem AsmNum.value_hex (n : Nat) : (AsmNum.hex n).value = n := rfl

theorem Asm.wf_putcHere (val : AsmNum) : (Asm.putcHere val).wf = (Asm.putc val (.hex 0xFF)).wf := by
  simp [Asm.wf]

theorem Asm.wf_putsz (buf pos : AsmNum) : (Asm.putsz buf pos).wf = (Asm.puts buf pos (.dec 0)).wf := by
  simp [Asm.wf]

theorem Asm.wf_putszHere (buf : AsmNum) : (Asm.putszHere buf).wf = (Asm.puts buf (.hex 0xFF) (.dec 0)).wf := by
  simp [Asm.wf]

/-- Settles O6: a line and its expansion pass the same check, and stand for the same request. -/
theorem pseudoRequestsExpand : Obligations.PseudoRequestsExpand := by
  refine ⟨fun val => ?_, fun buf pos => ?_, fun buf => ?_, rfl, rfl⟩
  · rw [assemble, assemble, Asm.wf_putcHere]
    rfl
  · rw [assemble, assemble, Asm.wf_putsz]
    rfl
  · rw [assemble, assemble, Asm.wf_putszHere]
    rfl

end Sys2Proof
end

section
/-! PROOFS. The bytes the block writes, bit by bit (spec 30_encoding R71, 40_encoder_writer R100 to R104,
43_backlight_clear R191): no PortByte touches a position that the layout does not name. -/

namespace Sys2Proof.Machine

open Sys2Proof

/-! ### The bits of the bytes written -/

@[simp] theorem getLsbD_oneHot (k j : Pos) : (oneHot k).getLsbD j.toNat = decide (j = k) := by
  revert k j
  decide

/-- One bit shifted to position `k` stands there alone. -/
theorem getLsbD_bit_shiftLeft (b : Bit) (k j : Pos) :
    (b.setWidth 8 <<< k.toNat : Byte).getLsbD j.toNat = (decide (j = k) && b.getLsbD 0) := by
  revert b k j
  decide

/-- The assignment `p[k] = b` sets bit `k` and leaves the others (00_scope R10). -/
@[simp] theorem getLsbD_setBit (p : Byte) (k j : Pos) (b : Bit) :
    (setBit p k b).getLsbD j.toNat = if j = k then b.getLsbD 0 else p.getLsbD j.toNat := by
  have hj : j.toNat < 8 := j.isLt
  simp only [setBit, BitVec.getLsbD_or, BitVec.getLsbD_and, BitVec.getLsbD_not, getLsbD_oneHot, getLsbD_bit_shiftLeft]
  by_cases h : j = k
  · simp [h]
  · simp [h, hj]

/-- The Signal Encoder bit by bit, its last assignment first (40_encoder_writer R100). -/
theorem getLsbD_signalEncode (c : Config) (v : Byte) (half : Half) (rs : Nat) (bl : Bit) (k : Pos) :
    (signalEncode c v half rs bl).getLsbD k.toNat =
      if k = c.cfgRs then (coerceRs rs).getLsbD 0
      else if k = c.cfgD4 then (nibbleOf v half).getLsbD 0
      else if k = c.cfgD5 then (nibbleOf v half).getLsbD 1
      else if k = c.cfgD6 then (nibbleOf v half).getLsbD 2
      else if k = c.cfgD7 then (nibbleOf v half).getLsbD 3
      else if k = c.cfgBl then bl.getLsbD 0
      else false := by
  simp [signalEncode]

theorem getLsbD_signalEncode_of_notMem {c : Config} {k : Pos} (hk : k ∉ c.positions) (v : Byte) (half : Half)
    (rs : Nat) (bl : Bit) : (signalEncode c v half rs bl).getLsbD k.toNat = false := by
  simp only [Config.positions, List.mem_cons, List.not_mem_nil, or_false, not_or] at hk
  obtain ⟨hbl, h7, h6, h5, h4, -, hrs⟩ := hk
  simp [getLsbD_signalEncode, hbl, h7, h6, h5, h4, hrs]

theorem getLsbD_withEnable (c : Config) (b : Byte) (k : Pos) :
    (withEnable c b).getLsbD k.toNat = (b.getLsbD k.toNat || decide (k = c.cfgE)) := by
  simp [withEnable]

theorem getLsbD_withoutEnable (c : Config) (b : Byte) (k : Pos) :
    (withoutEnable c b).getLsbD k.toNat = (b.getLsbD k.toNat && !decide (k = c.cfgE)) := by
  have hk : k.toNat < 8 := k.isLt
  simp only [withoutEnable, BitVec.getLsbD_and, BitVec.getLsbD_not, getLsbD_oneHot, hk, decide_true, Bool.true_and]

/-- No byte of the command writer touches a bit that the layout does not name. -/
theorem getLsbD_writerByte_of_notMem {c : Config} {k : Pos} (hk : k ∉ c.positions) (v : Byte) (rs : Nat) (bl : Bit)
    (sub : Sub) : (writerByte c v rs bl sub).getLsbD k.toNat = false := by
  have hE : k ≠ c.cfgE := fun h => hk (by simp [Config.positions, h])
  cases sub <;>
    simp [writerByte, getLsbD_withEnable, getLsbD_withoutEnable, getLsbD_signalEncode_of_notMem hk, hE]

theorem getLsbD_backlightByte (c : Config) (bl : Bit) (k : Pos) :
    (backlightByte c bl).getLsbD k.toNat = (decide (k = c.cfgBl) && bl.getLsbD 0) :=
  getLsbD_bit_shiftLeft bl c.cfgBl k

theorem getLsbD_backlightByte_of_notMem {c : Config} {k : Pos} (hk : k ∉ c.positions) (bl : Bit) :
    (backlightByte c bl).getLsbD k.toNat = false := by
  have hbl : k ≠ c.cfgBl := fun h => hk (by simp [Config.positions, h])
  simp [getLsbD_backlightByte, hbl]

/-! ### The default layout -/

/-- A byte is what it has at the eight positions. -/
theorem eq_of_getLsbD_pos_eq {x y : Byte} (h : ∀ k : Pos, x.getLsbD k.toNat = y.getLsbD k.toNat) : x = y := by
  refine BitVec.eq_of_getLsbD_eq fun i hi => ?_
  have hpos : (BitVec.ofNat 3 i).toNat = i := Nat.mod_eq_of_lt hi
  simpa only [hpos] using h (BitVec.ofNat 3 i)

theorem coerceRs_toNat (rs : Bit) : coerceRs rs.toNat = rs := by
  revert rs
  decide

/-- The byte formula of 30_encoding R71, position by position. -/
theorem signalEncode_default (v : Byte) (half : Half) (rs bl : Bit) :
    signalEncode Config.default v half rs.toNat bl =
      (bl.setWidth 8 <<< 7) ||| ((nibbleOf v half).setWidth 8 <<< 3) ||| (rs.setWidth 8 <<< 1) := by
  refine eq_of_getLsbD_pos_eq fun k => ?_
  rw [getLsbD_signalEncode, coerceRs_toNat]
  have hk := mem_allPos k
  simp only [allPos, List.mem_cons, List.not_mem_nil, or_false] at hk
  rcases hk with rfl | rfl | rfl | rfl | rfl | rfl | rfl | rfl <;> simp [Config.default]

/-- Settles O15: the positions and masks are computed, the byte formula is `signalEncode_default`. -/
theorem defaultLayoutByte : Obligations.DefaultLayoutByte :=
  ⟨rfl, by decide, by decide, signalEncode_default⟩

end Sys2Proof.Machine
end

section
/-! PROOFS. What a step may add to the record of a run, said once: the events the block can produce (spec 00_scope R12),
and what they leave on the expander's pins. The unused bit (30_encoding R75) follows from the bytes among them. -/

namespace Sys2Proof.Machine

open Sys2Proof

/-! ### The record of a run -/

/-- The events a block configured by `c` can produce while `BL` is `bl`: what it opens, the bytes it writes, and that
a wait lasts its class's duration. -/
inductive Event.Lawful (c : Config) (bl : Bit) : Event → Prop where
  | opened (r : Answer) : Lawful c bl (.opened c.devAddr r)
  | preByte (r : Answer) : Lawful c bl (.wrote c.gpioReg .pre r)
  | rawByte {b : Byte} (hb : b ∈ c.expanderInitSeq) (r : Answer) : Lawful c bl (.wrote b .raw r)
  | writerByte (v : Byte) (rs : Nat) (sub : Sub) (r : Answer) : Lawful c bl (.wrote (writerByte c v rs bl sub) .port r)
  | backlightByte (r : Answer) : Lawful c bl (.wrote (backlightByte c bl) .port r)
  | closed : Lawful c bl .closed
  | delayed {d : DelayClass} {us : Nat} (hus : duration c d ≤ us) : Lawful c bl (.delayed d us)
  | readAt (addr : Word) (v : Option Byte) : Lawful c bl (.readAt addr v)
  | responded (status : Status) : Lawful c bl (.responded status)

/-- From `s` to `t` the configuration stays, the trace grows by events that satisfy `P`, and these say what has become
of the pins. -/
structure Extends (P : Event → Prop) (s t : State) : Prop where
  cfg_eq : t.cfg = s.cfg
  events : ∃ events, t.trace = s.trace ++ events ∧ t.pins = pinsOver s.pins events ∧ ∀ e ∈ events, P e

/-- `t` has the configuration, the trace and the pins of `s`. -/
structure SameRecord (s t : State) : Prop where
  cfg_eq : t.cfg = s.cfg
  trace_eq : t.trace = s.trace
  pins_eq : t.pins = s.pins

/-- The update `f` is internal to the block. -/
def Quiet (f : State → State) : Prop := ∀ s, SameRecord s (f s)

/-- The state a move leads to, where it has one, satisfies `P`. -/
def Move.All (P : State → Prop) : Move → Prop
  | .go t | .halt t => P t
  | .refused _ => True

@[simp] theorem Move.all_go (P : State → Prop) (t : State) : (Move.go t).All P ↔ P t := Iff.rfl

@[simp] theorem Move.all_halt (P : State → Prop) (t : State) : (Move.halt t).All P ↔ P t := Iff.rfl

@[simp] theorem Move.all_refused (P : State → Prop) (r : Refusal) : (Move.refused r).All P := trivial

theorem Move.All.mono {P Q : State → Prop} {m : Move} (h : m.All P) (hPQ : ∀ t, P t → Q t) : m.All Q := by
  cases m with
  | go t => exact hPQ t h
  | halt t => exact hPQ t h
  | refused r => exact Move.all_refused Q r

/-- Whatever the primitive `tick` leads to, it has added only lawful events, under the `BL` it started with. -/
def RecordsLawfully (tick : State → Move) : Prop := ∀ s, (tick s).All (Extends (Event.Lawful s.cfg s.bl) s)

theorem pinsOver_append (old : Option Byte) (l₁ l₂ : List Event) :
    pinsOver old (l₁ ++ l₂) = pinsOver (pinsOver old l₁) l₂ := by
  induction l₁ generalizing old with
  | nil => rfl
  | cons e l ih => rcases e with ⟨_, _ | _⟩ | ⟨_, _, _ | _⟩ | _ | _ | _ | _ <;> exact ih _

theorem Extends.refl (P : Event → Prop) (s : State) : Extends P s s := ⟨rfl, [], by simp, rfl, by simp⟩

theorem Extends.trans {P : Event → Prop} {s t u : State} (hst : Extends P s t) (htu : Extends P t u) :
    Extends P s u := by
  obtain ⟨hcfg, es, htrace, hpins, hes⟩ := hst
  obtain ⟨hcfg', es', htrace', hpins', hes'⟩ := htu
  refine ⟨hcfg'.trans hcfg, es ++ es', by simp [htrace', htrace], by rw [hpins', hpins, pinsOver_append], ?_⟩
  exact fun e he => (List.mem_append.mp he).elim (hes e) (hes' e)

theorem Extends.mono {P Q : Event → Prop} {s t : State} (h : Extends P s t) (hPQ : ∀ e, P e → Q e) : Extends Q s t := by
  obtain ⟨hcfg, es, htrace, hpins, hes⟩ := h
  exact ⟨hcfg, es, htrace, hpins, fun e he => hPQ e (hes e he)⟩

theorem SameRecord.extends {s t : State} (h : SameRecord s t) (P : Event → Prop) : Extends P s t :=
  ⟨h.cfg_eq, [], by simp [h.trace_eq], h.pins_eq, by simp⟩

theorem Quiet.extends {P : Event → Prop} {f : State → State} {s t : State} (hf : Quiet f) (h : Extends P s t) :
    Extends P s (f t) :=
  h.trans ((hf t).extends P)

/-! ### The block's own updates -/

theorem Quiet.comp {f g : State → State} (hf : Quiet f) (hg : Quiet g) : Quiet fun s => f (g s) := fun s => by
  obtain ⟨hcfg, htrace, hpins⟩ := hf (g s)
  obtain ⟨hcfg', htrace', hpins'⟩ := hg s
  exact ⟨hcfg.trans hcfg', htrace.trans htrace', hpins.trans hpins'⟩

theorem Quiet.ite {c : State → Prop} {_ : DecidablePred c} {f g : State → State} (hf : Quiet f) (hg : Quiet g) :
    Quiet fun s => if c s then f s else g s := fun s => by
  dsimp only
  split
  · exact hf s
  · exact hg s

theorem quiet_goto (p : Phase) : Quiet fun s => s.goto p := fun _ => ⟨rfl, rfl, rfl⟩

theorem quiet_setSeq (f : Seq → Seq) : Quiet fun s => { s with seq := f s.seq } := fun _ => ⟨rfl, rfl, rfl⟩

theorem quiet_setPend (cls : DelayClass) : Quiet fun s => { s with pend := cls } := fun _ => ⟨rfl, rfl, rfl⟩

theorem quiet_issueCommand (v : Byte) (rs : Bit) : Quiet (State.issueCommand v rs) := fun _ => ⟨rfl, rfl, rfl⟩

theorem quiet_enterSession : Quiet State.enterSession := fun _ => ⟨rfl, rfl, rfl⟩

theorem quiet_countWrite : Quiet State.countWrite := fun _ => ⟨rfl, rfl, rfl⟩

theorem quiet_startCommand : Quiet State.startCommand := fun _ => ⟨rfl, rfl, rfl⟩

theorem quiet_backlightStep (on : Bit) : Quiet (State.backlightStep on) := fun _ => ⟨rfl, rfl, rfl⟩

theorem quiet_respondOk : Quiet State.respondOk := fun _ => ⟨rfl, rfl, rfl⟩

theorem quiet_raiseBufFault : Quiet State.raiseBufFault := fun _ => ⟨rfl, rfl, rfl⟩

theorem quiet_abortClosed : Quiet State.abortClosed := fun _ => ⟨rfl, rfl, rfl⟩

theorem quiet_called {onCall : State → State} (h : Quiet onCall) : Quiet (State.called onCall) :=
  .ite (fun _ => ⟨rfl, rfl, rfl⟩) ((quiet_setSeq fun q => { q with asked := 1 }).comp h)

theorem quiet_hostEdits : Quiet State.hostEdits := fun s => by
  rcases s.hostEdits_cases with h | ⟨es, rest, -, h⟩ <;> rw [h] <;> exact ⟨rfl, rfl, rfl⟩

theorem quiet_afterByte (mode : Mode) {atEnd : State → State} (h : Quiet atEnd) :
    Quiet (State.afterByte mode atEnd) := fun s => by
  have hend := h.comp (quiet_setSeq fun q => { q with sub := .hiSet }) s
  unfold State.afterByte
  cases s.seq.sub <;> cases mode
  case hiEl.byte | loEl.byte | loEl.nibble => exact hend
  all_goals exact ⟨rfl, rfl, rfl⟩

theorem quiet_finishCommands {done : State → State} (h : Quiet done) : Quiet (State.finishCommands done) :=
  .ite h (quiet_goto .waitTail)

theorem quiet_blinkLoop : Quiet blinkLoop :=
  .ite quiet_respondOk ((quiet_backlightStep 1).comp (quiet_setSeq fun q => { q with half := 0 }))

theorem quiet_blinkNext : Quiet blinkNext :=
  .ite ((quiet_backlightStep 0).comp (quiet_setSeq fun q => { q with half := 1 }))
    (quiet_blinkLoop.comp (quiet_setSeq fun q => { q with cnt := q.cnt - 1 }))

theorem quiet_putcChar : Quiet putcChar := fun _ => ⟨rfl, rfl, rfl⟩

theorem quiet_cursorSet : Quiet fun s => s.issueCommand (cursorSet s.posOf) 0 := fun _ => ⟨rfl, rfl, rfl⟩

theorem quiet_putcFirst : Quiet putcFirst := .ite quiet_putcChar quiet_cursorSet

theorem quiet_putcNext : Quiet putcNext := .ite quiet_putcChar (quiet_goto .close)

theorem quiet_putsLoop : Quiet putsLoop := .ite (quiet_goto .close) (quiet_goto .read)

theorem quiet_putsFirst : Quiet putsFirst := .ite quiet_putsLoop quiet_cursorSet

theorem putsByte_sameRecord (v : Option Byte) (s : State) : (putsByte v s).All (SameRecord s) := by
  cases v with
  | none => exact quiet_raiseBufFault s
  | some b =>
    unfold putsByte
    dsimp only
    split
    · exact quiet_goto .close s
    · exact quiet_issueCommand b 1 s

theorem quiet_putsNext : Quiet putsNext :=
  .ite quiet_putsLoop (.ite quiet_raiseBufFault
    (quiet_putsLoop.comp (quiet_setSeq fun q => { q with idx := q.idx + 1 })))

theorem quiet_initxLoop : Quiet initxLoop := .ite (quiet_goto .raw) (quiet_goto .close)

theorem quiet_initxNext : Quiet initxNext := quiet_initxLoop.comp (quiet_setSeq fun q => { q with idx := q.idx + 1 })

theorem quiet_initdStep (k : BitVec 4) : Quiet (initdStep k) := fun s => by
  unfold initdStep
  split <;> exact ⟨rfl, rfl, rfl⟩

theorem quiet_initdNext : Quiet initdNext := fun s => quiet_initdStep (s.seq.step + 1) s

theorem quiet_initdDone : Quiet initdDone := fun _ => ⟨rfl, rfl, rfl⟩

theorem quiet_startOf (i : Instr) : Quiet (startOf i) := by
  cases i
  case blink => exact quiet_blinkLoop.comp fun _ => ⟨rfl, rfl, rfl⟩
  all_goals exact fun _ => ⟨rfl, rfl, rfl⟩

/-! ### The primitives, one event each -/

/-- One event, what it leaves on the pins, and nothing else. -/
theorem extends_of_event {P : Event → Prop} {s t : State} {e : Event} (he : P e) (hcfg : t.cfg = s.cfg)
    (htrace : t.trace = s.trace ++ [e]) (hpins : t.pins = pinsOver s.pins [e]) : Extends P s t :=
  ⟨hcfg, [e], htrace, hpins, by simpa using he⟩

theorem busOpen_records {next : State → State} (h : Quiet next) : RecordsLawfully (busOpen next) := fun s => by
  have hcalled : SameRecord s (s.called State.enterSession) := quiet_called quiet_enterSession s
  have hevent (r : Answer) : Event.Lawful s.cfg s.bl (.opened (s.called State.enterSession).cfg.devAddr r) :=
    hcalled.cfg_eq ▸ .opened r
  rcases busOpen_cases next s with ⟨-, hm⟩ | ⟨t, -, hm⟩ | ⟨t, -, hm⟩
  · rw [hm, Move.all_halt]
    exact hcalled.extends _
  · rw [hm, Move.all_go]
    exact (hcalled.extends _).trans (h.extends (extends_of_event (hevent .ok) rfl rfl rfl))
  · rw [hm, Move.all_go]
    exact (hcalled.extends _).trans (extends_of_event (hevent .err) rfl rfl rfl)

theorem put_records {b : Byte} {kind : WriteKind} {next : State → State} {s : State}
    (hb : ∀ r, Event.Lawful s.cfg s.bl (.wrote b kind r)) (h : Quiet next) :
    (put b kind next s).All (Extends (Event.Lawful s.cfg s.bl) s) := by
  have hcalled : SameRecord s (s.called State.countWrite) := quiet_called quiet_countWrite s
  rcases put_cases b kind next s with ⟨-, hm⟩ | ⟨t, -, hm⟩ | ⟨t, -, hm⟩
  · rw [hm, Move.all_halt]
    exact hcalled.extends _
  · rw [hm, Move.all_go]
    exact (hcalled.extends _).trans (h.extends (extends_of_event (hb .ok) rfl rfl rfl))
  · rw [hm, Move.all_go]
    exact (hcalled.extends _).trans (extends_of_event (hb .err) rfl rfl rfl)

theorem waitFor_records (c : DelayClass) {next : State → State} (h : Quiet next) :
    RecordsLawfully (waitFor c next) := fun s => by
  rcases waitFor_cases c next s with ⟨-, hm⟩ | ⟨late, t, -, hm⟩
  · rw [hm, Move.all_halt]
    exact .refl _ s
  · have hlate : duration s.cfg c ≤ duration s.cfg c + late := Nat.le_add_right _ late
    rw [hm, Move.all_go]
    exact h.extends (extends_of_event (Event.Lawful.delayed hlate) rfl rfl rfl)

theorem memRead_records (addr : Word) {onByte : Option Byte → State → Move}
    (h : ∀ v s, (onByte v s).All (SameRecord s)) : RecordsLawfully (memRead addr onByte) := fun s => by
  have hread (v : Option Byte) : Extends (Event.Lawful s.cfg s.bl) s (s.hostEdits.log (.readAt addr v)) :=
    ((quiet_hostEdits s).extends _).trans (extends_of_event (Event.Lawful.readAt addr v) rfl rfl rfl)
  exact (h _ _).mono fun t ht => (hread _).trans (ht.extends _)

/-! ### The phases -/

theorem respPhase_records : RecordsLawfully respPhase := fun s => extends_of_event (.responded s.status) rfl rfl rfl

theorem openPhase_records {first : State → State} (h : Quiet first) : RecordsLawfully (openPhase first) :=
  busOpen_records (.ite (quiet_goto .preWrite) h)

theorem prePhase_records {first : State → State} (h : Quiet first) : RecordsLawfully (prePhase first) :=
  fun _ => put_records .preByte h

theorem closePhase_records {after : State → State} (h : Quiet after) : RecordsLawfully (closePhase after) := fun s => by
  have hclosed : Extends (Event.Lawful s.cfg s.bl) s s.endSession := extends_of_event .closed rfl rfl rfl
  rw [closePhase, Move.all_go]
  split
  · exact quiet_abortClosed.extends hclosed
  · exact h.extends hclosed

theorem waitInPhase_records : RecordsLawfully waitInPhase := fun s => by
  unfold waitInPhase
  split
  · exact (quiet_startCommand s).extends _
  · exact waitFor_records s.pend (quiet_startCommand.comp (quiet_setPend .none)) s

theorem writePhase_records (mode : Mode) (cls : DelayClass) {atEnd : State → State} (h : Quiet atEnd) :
    RecordsLawfully (writePhase mode cls atEnd) := fun s =>
  put_records (.writerByte s.seq.cur s.seq.rs.toNat s.seq.sub) (quiet_afterByte mode (h.comp (quiet_setPend cls)))

theorem waitTailPhase_records {done : State → State} (h : Quiet done) : RecordsLawfully (waitTailPhase done) :=
  fun s => by
  unfold waitTailPhase
  split
  · exact (h s).extends _
  · exact waitFor_records s.pend (h.comp (quiet_setPend .none)) s

theorem blWritePhase_records : RecordsLawfully blWritePhase := fun _ => put_records .backlightByte (quiet_goto .close)

/-! ### The requests' sequencers, phase by phase -/

theorem setblTick_records : RecordsLawfully setblTick := fun s => by
  unfold setblTick
  cases s.seq.ph
  case openBus => exact openPhase_records (quiet_goto .blWrite) s
  case preWrite => exact prePhase_records (quiet_goto .blWrite) s
  case blWrite => exact blWritePhase_records s
  case close => exact closePhase_records quiet_respondOk s
  case resp => exact respPhase_records s
  all_goals exact Move.all_refused _ _

theorem blinkTick_records : RecordsLawfully blinkTick := fun s => by
  unfold blinkTick
  cases s.seq.ph
  case openBus => exact openPhase_records (quiet_goto .blWrite) s
  case preWrite => exact prePhase_records (quiet_goto .blWrite) s
  case blWrite => exact blWritePhase_records s
  case close => exact closePhase_records (quiet_goto .blWait) s
  case blWait => exact waitFor_records .blink quiet_blinkNext s
  case resp => exact respPhase_records s
  all_goals exact Move.all_refused _ _

theorem clearTick_records : RecordsLawfully clearTick := fun s => by
  have hfirst : Quiet clearFirst := quiet_issueCommand 0x01 0
  unfold clearTick
  cases s.seq.ph
  case openBus => exact openPhase_records hfirst s
  case preWrite => exact prePhase_records hfirst s
  case write => exact writePhase_records .nibble .clear (quiet_goto .close) s
  case waitIn => exact waitInPhase_records s
  case close => exact closePhase_records (quiet_finishCommands quiet_respondOk) s
  case waitTail => exact waitTailPhase_records quiet_respondOk s
  case resp => exact respPhase_records s
  all_goals exact Move.all_refused _ _

theorem putcTick_records : RecordsLawfully putcTick := fun s => by
  unfold putcTick
  cases s.seq.ph
  case openBus => exact openPhase_records quiet_putcFirst s
  case preWrite => exact prePhase_records quiet_putcFirst s
  case write => exact writePhase_records .nibble .std quiet_putcNext s
  case waitIn => exact waitInPhase_records s
  case close => exact closePhase_records (quiet_finishCommands quiet_respondOk) s
  case waitTail => exact waitTailPhase_records quiet_respondOk s
  case resp => exact respPhase_records s
  all_goals exact Move.all_refused _ _

theorem putsTick_records : RecordsLawfully putsTick := fun s => by
  unfold putsTick
  cases s.seq.ph
  case openBus => exact openPhase_records quiet_putsFirst s
  case preWrite => exact prePhase_records quiet_putsFirst s
  case write => exact writePhase_records .nibble .std quiet_putsNext s
  case waitIn => exact waitInPhase_records s
  case read => exact memRead_records (bufferAddr s.bufOf s.seq.idx) putsByte_sameRecord s
  case close => exact closePhase_records (quiet_finishCommands quiet_respondOk) s
  case waitTail => exact waitTailPhase_records quiet_respondOk s
  case resp => exact respPhase_records s
  case faulted => exact .refl _ s
  all_goals exact Move.all_refused _ _

theorem initxTick_records : RecordsLawfully initxTick := fun s => by
  unfold initxTick
  cases s.seq.ph
  case openBus => exact openPhase_records quiet_initxLoop s
  case preWrite => exact prePhase_records quiet_initxLoop s
  case raw =>
    rcases hbyte : s.cfg.expanderInitSeq[s.seq.idx.toNat]? with _ | b
    · exact Move.all_refused _ _
    · exact put_records (.rawByte (List.mem_of_getElem? hbyte)) quiet_initxNext
  case close => exact closePhase_records quiet_respondOk s
  case resp => exact respPhase_records s
  all_goals exact Move.all_refused _ _

theorem initdTick_records : RecordsLawfully initdTick := fun s => by
  unfold initdTick
  cases s.seq.ph
  case openBus => exact openPhase_records (quiet_initdStep 1) s
  case preWrite => exact prePhase_records (quiet_initdStep 1) s
  case write =>
    rcases initRom s.seq.step with _ | row
    · exact Move.all_refused _ _
    · exact writePhase_records row.mode row.cls quiet_initdNext s
  case waitIn => exact waitInPhase_records s
  case close => exact closePhase_records (quiet_finishCommands quiet_initdDone) s
  case waitTail => exact waitTailPhase_records quiet_initdDone s
  case resp => exact respPhase_records s
  all_goals exact Move.all_refused _ _

theorem tickOf_records (i : Instr) : RecordsLawfully (tickOf i) := by
  cases i with
  | initx => exact initxTick_records
  | initd => exact initdTick_records
  | putc val pos => exact putcTick_records
  | puts buf pos len => exact putsTick_records
  | setbl on => exact setblTick_records
  | blink count => exact blinkTick_records
  | clear => exact clearTick_records

theorem seqTick_records : RecordsLawfully seqTick := fun s => by
  unfold seqTick
  rcases decode s.req0 s.req1 with e | i
  · exact Move.all_refused _ _
  · exact tickOf_records i s

/-! ### The run and the step -/

/-- An event a block configured by `c` can produce, whatever `BL` is at the time. -/
def Event.LawfulSome (c : Config) (e : Event) : Prop := ∃ bl, e.Lawful c bl

/-- `BL` may change between the primitives of a run; the configuration does not. -/
theorem run_records {tick : State → Move} (htick : RecordsLawfully tick) {n : Nat} {s t : State}
    (h : run tick n s = .next t) : Extends (Event.LawfulSome s.cfg) s t := by
  have hmove (u : State) (hu : Extends (Event.LawfulSome s.cfg) s u) :
      (tick u).All (Extends (Event.LawfulSome s.cfg) s) := by
    have hstep := htick u
    rw [hu.cfg_eq] at hstep
    exact hstep.mono fun v hv => hu.trans (hv.mono fun _ he => ⟨u.bl, he⟩)
  refine run_keeps (Extends (Event.LawfulSome s.cfg) s) (fun u v hu hv => ?_) (fun u v hu hv => ?_) n s t (.refl _ s) h
  · simpa [hv] using hmove u hu
  · simpa [hv] using hmove u hu

theorem exec_records {i : Instr} {s t : State} (h : exec i s = .next t) :
    Extends (Event.LawfulSome s.cfg) s t := by
  rw [exec_eq_serve] at h
  by_cases hidle : s.seq.ph = .idle
  · rw [serve_idle hidle] at h
    have hstart : SameRecord s (startOf i (s.accept (encode i))) :=
      (quiet_startOf i).comp (g := State.accept (encode i)) (fun _ => ⟨rfl, rfl, rfl⟩) s
    have hrun := run_records (tickOf_records i) h
    rw [hstart.cfg_eq] at hrun
    exact (hstart.extends _).trans hrun
  by_cases hfaulted : s.seq.ph = .faulted
  · rw [serve_faulted hfaulted] at h
    cases h
  · rw [serve_busy hidle hfaulted] at h
    cases h
    exact .refl _ s

/-- Where a step answers a next state: nothing was presented, a request word was illegal, a request was served, or a
busy block went on. -/
theorem step_next_cases {s t : State} (h : step s = .next t) :
    (s.seq.ph = .idle ∧ s.host.queue = [] ∧ t = s) ∨
    (∃ r q, s.seq.ph = .idle ∧ s.host.queue = r :: q ∧
      ((∃ e, decode r.w0 r.w1 = .error e ∧ t = State.rejectIllegal r (s.withQueue q)) ∨
        ∃ i, decode r.w0 r.w1 = .ok i ∧ exec i (s.withQueue q) = .next t)) ∨
    (s.seq.ph ≠ .idle ∧ s.seq.ph ≠ .faulted ∧ proceed s = .next t) := by
  by_cases hfaulted : s.seq.ph = .faulted
  · rw [step_faulted hfaulted] at h
    cases h
  by_cases hidle : s.seq.ph = .idle
  · rcases hqueue : s.host.queue with _ | ⟨r, q⟩
    · simp only [step, hidle, State.takeRequest, hqueue, Host.Outcome.next.injEq] at h
      exact .inl ⟨hidle, rfl, h.symm⟩
    · refine .inr (.inl ⟨r, q, hidle, rfl, ?_⟩)
      simp only [step, hidle, State.takeRequest, hqueue] at h
      rcases hdecode : decode r.w0 r.w1 with e | i <;> rw [hdecode] at h
      · exact .inl ⟨e, rfl, (Host.Outcome.next.inj h).symm⟩
      · exact .inr ⟨i, rfl, h⟩
  · exact .inr (.inr ⟨hidle, hfaulted, step_busy hidle hfaulted ▸ h⟩)

/-- What a step adds to the record of a run: lawful events alone, and what they leave on the pins. -/
theorem step_records {s t : State} (h : step s = .next t) : Extends (Event.LawfulSome s.cfg) s t := by
  rcases step_next_cases h with ⟨-, -, rfl⟩ | ⟨r, q, -, -, ⟨e, -, rfl⟩ | ⟨i, -, hexec⟩⟩ | ⟨-, -, hrun⟩
  · exact .refl _ t
  · exact extends_of_event ⟨s.bl, .responded .illegalRequest⟩ rfl rfl rfl
  · have hqueue : SameRecord s (s.withQueue q) := ⟨rfl, rfl, rfl⟩
    exact (hqueue.extends _).trans (exec_records hexec)
  · exact run_records seqTick_records hrun

/-- `CFG_UNUSED` is the position the layout leaves free, and both kinds of PortByte keep to the layout. -/
theorem unusedClear_of_lawful {c : Config} {l : List Event} (h : ∀ e ∈ l, Event.LawfulSome c e) : unusedClear c l := by
  intro b r hmem
  obtain ⟨bl, hlawful⟩ := h _ hmem
  cases hlawful with
  | writerByte v rs sub => exact getLsbD_writerByte_of_notMem c.cfgUnused_notMem_positions v rs bl sub
  | backlightByte => exact getLsbD_backlightByte_of_notMem c.cfgUnused_notMem_positions bl

theorem unusedClear_append {c : Config} {l₁ l₂ : List Event} (h₁ : unusedClear c l₁) (h₂ : unusedClear c l₂) :
    unusedClear c (l₁ ++ l₂) := fun b r hmem =>
  (List.mem_append.mp hmem).elim (h₁ b r) (h₂ b r)

/-- Settles O44: every PortByte a step adds keeps to the layout, which leaves `CFG_UNUSED` out. -/
theorem unusedBitStaysZero : Obligations.UnusedBitStaysZero := by
  intro s t _ hclear h
  obtain ⟨hcfg, es, htrace, -, hes⟩ := step_records h
  rw [hcfg, htrace]
  exact unusedClear_append hclear (unusedClear_of_lawful hes)

end Sys2Proof.Machine
end

section
/-! PROOFS. The enable line and the command writer (spec 40_encoder_writer R103 to R105, R108): which bytes assert
`CFG_E`, and what a whole LogicalCommand leaves where every write is answered OK. -/

namespace Sys2Proof.Machine

open Sys2Proof

/-! ### The enable bit -/

/-- The enable line shares its position with no other line (00_scope R8). -/
theorem Config.cfgE_ne_others {c : Config} (hc : c.positions.Nodup) :
    c.cfgE ≠ c.cfgBl ∧ c.cfgE ≠ c.cfgD7 ∧ c.cfgE ≠ c.cfgD6 ∧ c.cfgE ≠ c.cfgD5 ∧
      c.cfgE ≠ c.cfgD4 ∧ c.cfgE ≠ c.cfgRs := by
  simp only [Config.positions, List.nodup_cons, List.mem_cons, List.not_mem_nil, or_false, not_or] at hc
  obtain ⟨⟨-, -, -, -, hbl, -⟩, ⟨-, -, -, h7, -⟩, ⟨-, -, h6, -⟩, ⟨-, h5, -⟩, ⟨h4, -⟩, hrs, -⟩ := hc
  exact ⟨Ne.symm hbl, Ne.symm h7, Ne.symm h6, Ne.symm h5, Ne.symm h4, hrs⟩

theorem getLsbD_signalEncode_cfgE {c : Config} (hc : c.positions.Nodup) (v : Byte) (half : Half) (rs : Nat) (bl : Bit) :
    (signalEncode c v half rs bl).getLsbD c.cfgE.toNat = false := by
  obtain ⟨hbl, h7, h6, h5, h4, hrs⟩ := Config.cfgE_ne_others hc
  simp [getLsbD_signalEncode, hbl, h7, h6, h5, h4, hrs]

theorem getLsbD_signalEncode_cfgBl {c : Config} (hc : c.positions.Nodup) (v : Byte) (half : Half)
    (rs : Nat) (bl : Bit) :
    (signalEncode c v half rs bl).getLsbD c.cfgBl.toNat = bl.getLsbD 0 := by
  simp only [Config.positions, List.nodup_cons, List.mem_cons, List.not_mem_nil, or_false, not_or] at hc
  obtain ⟨⟨h7, h6, h5, h4, -, hrs⟩, -⟩ := hc
  simp [getLsbD_signalEncode, h7, h6, h5, h4, hrs]

/-- The command writer asserts `CFG_E` at its two enable positions alone (40_encoder_writer R103, R104). -/
theorem getLsbD_writerByte_cfgE {c : Config} (hc : c.positions.Nodup) (v : Byte) (rs : Nat) (bl : Bit) (sub : Sub) :
    (writerByte c v rs bl sub).getLsbD c.cfgE.toNat = decide (sub = .hiEh ∨ sub = .loEh) := by
  have hoff (half : Half) := getLsbD_signalEncode_cfgE hc v half rs bl
  cases sub <;> simp [writerByte, getLsbD_withEnable, getLsbD_withoutEnable, hoff]

theorem getLsbD_backlightByte_cfgE {c : Config} (hc : c.positions.Nodup) (bl : Bit) :
    (backlightByte c bl).getLsbD c.cfgE.toNat = false := by
  simp [getLsbD_backlightByte, (Config.cfgE_ne_others hc).1]

/-- Settles O14: bit by bit, from the layout's distinct positions and the one it leaves free. -/
theorem enableOnlyFromCommandWriter : Obligations.EnableOnlyFromCommandWriter := by
  rintro c v rs bl ⟨hc, -⟩
  refine ⟨fun half => ⟨?_, ?_, ?_⟩, ?_, ?_⟩
  · exact getLsbD_signalEncode_cfgE hc v half rs bl
  · exact getLsbD_signalEncode_of_notMem c.cfgUnused_notMem_positions v half rs bl
  · exact getLsbD_signalEncode_cfgBl hc v half rs bl
  · exact getLsbD_writerByte_cfgE hc v rs bl
  · exact getLsbD_backlightByte_cfgE hc bl

/-- An encoded byte is what it is with enable deasserted: the closing byte of a pulse equals its opening byte. -/
theorem withoutEnable_signalEncode {c : Config} (hc : c.positions.Nodup) (v : Byte) (half : Half)
    (rs : Nat) (bl : Bit) :
    withoutEnable c (signalEncode c v half rs bl) = signalEncode c v half rs bl := by
  refine eq_of_getLsbD_pos_eq fun k => ?_
  rw [getLsbD_withoutEnable]
  by_cases hk : k = c.cfgE
  · simp [hk, getLsbD_signalEncode_cfgE hc]
  · simp [hk]

/-! ### A bus write answered OK -/

theorem Tape.draw_of_allOk {t : Tape Answer} (h : t.allOk) : ∃ t', t'.allOk ∧ t.draw = some (.ok, t') := by
  obtain ⟨hscript, hrest⟩ := h
  rcases t.draw_cases with ⟨a, l, hl, hdraw⟩ | ⟨a, -, ha, hdraw⟩ | ⟨-, hnone, -⟩
  · rw [hl, List.forall_mem_cons] at hscript
    exact ⟨⟨l, t.rest⟩, ⟨hscript.2, hrest⟩, hscript.1 ▸ hdraw⟩
  · obtain rfl : a = .ok := Option.some.inj (ha.symm.trans hrest)
    exact ⟨t, ⟨hscript, hrest⟩, hdraw⟩
  · simp [hrest] at hnone

/-- What bus writes answered OK, with the events `l`, leave: the trace, the count of writes, the pins and the transport,
whose tape is then `t`. -/
def State.written (l : List Event) (t : Tape Answer) (s : State) : State :=
  { s with
    trace := s.trace ++ l
    errWidx := s.errWidx + BitVec.ofNat 64 l.length
    pins := pinsOver s.pins l
    transport := t }

theorem State.written_written (l₁ l₂ : List Event) (t₁ t₂ : Tape Answer) (s : State) :
    (s.written l₁ t₁).written l₂ t₂ = s.written (l₁ ++ l₂) t₂ := by
  simp [State.written, pinsOver_append, BitVec.ofNat_add, BitVec.add_assoc]

/-- A counted write that is answered at once leaves nothing of the call behind but its count. -/
theorem State.answered_called_countWrite {s : State} (hasked : s.seq.asked = 0) (t : Tape Answer) :
    (s.called State.countWrite).answered t = { s with errWidx := s.errWidx + 1, transport := t } := by
  have hseq : { s.seq with asked := 0 } = s.seq := by rw [← hasked]
  rw [State.called_fresh hasked]
  exact congrArg (fun q => { s with errWidx := s.errWidx + 1, transport := t, seq := q }) hseq

theorem put_allOk (b : Byte) (kind : WriteKind) (next : State → State) {s : State} (hasked : s.seq.asked = 0)
    (hok : s.transport.allOk) :
    ∃ t : Tape Answer, t.allOk ∧ put b kind next s = .go (next (s.written [.wrote b kind .ok] t)) := by
  obtain ⟨t, ht, hdraw⟩ := Tape.draw_of_allOk hok
  refine ⟨t, ht, (put_ok hdraw).trans ?_⟩
  rw [State.answered_called_countWrite hasked]
  rfl

/-! ### The positions of a command -/

/-- The command writer at a position of its command (30_encoding R87). -/
def State.atSub (sub : Sub) (s : State) : State := { s with seq := { s.seq with sub := sub } }

theorem State.atSub_of_sub_eq {s : State} {sub : Sub} (h : s.seq.sub = sub) : s.atSub sub = s := by
  rw [State.atSub, ← h]

/-- Where the command writer goes after a byte, in the terms of `Sub.following` and `Sub.endsCommand`. -/
theorem State.afterByte_eq (mode : Mode) (atEnd : State → State) (s : State) :
    s.afterByte mode atEnd =
      if s.seq.sub.endsCommand mode then atEnd (s.atSub .hiSet) else s.atSub s.seq.sub.following := by
  unfold State.afterByte
  cases s.seq.sub <;> cases mode <;> rfl

/-- The positions still to write, from `sub` to the end of its command (30_encoding R87). -/
inductive Sub.Remaining (mode : Mode) : Sub → List Sub → Prop where
  | last {sub : Sub} (h : sub.endsCommand mode = true) : Remaining mode sub [sub]
  | more {sub : Sub} {l : List Sub} (h : sub.endsCommand mode = false) (rest : Remaining mode sub.following l) :
    Remaining mode sub (sub :: l)

/-- The positions of a whole command: one pulse for a byte, two for a nibble pair (40_encoder_writer R105). -/
def Mode.positions : Mode → List Sub
  | .byte => [.hiSet, .hiEh, .hiEl]
  | .nibble => [.hiSet, .hiEh, .hiEl, .loSet, .loEh, .loEl]

theorem Mode.remaining_hiSet (mode : Mode) : Sub.Remaining mode .hiSet mode.positions := by
  cases mode with
  | byte => exact .more rfl (.more rfl (.last rfl))
  | nibble => exact .more rfl (.more rfl (.more rfl (.more rfl (.more rfl (.last rfl)))))

/-- The write the command writer makes at a position, answered OK (40_encoder_writer R105). -/
def State.writeEvent (s : State) (sub : Sub) : Event :=
  .wrote (writerByte s.cfg s.seq.cur s.seq.rs.toNat s.bl sub) .port .ok

theorem State.map_writeEvent_positions (s : State) (mode : Mode) :
    mode.positions.map s.writeEvent = commandEvents s.cfg s.bl s.seq.cur mode s.seq.rs.toNat := by
  cases mode <;> rfl

/-! ### A command, every write answered OK

`tick` is a sequencer that writes the command: the phase WRITE alone, or a request's own sequencer in that phase. -/

/-- While the phase and the INITD step are those of `s`, the sequencer `tick` performs the phase WRITE of a command. -/
def WritesCommand (tick : State → Move) (mode : Mode) (cls : DelayClass) (atEnd : State → State) (s : State) : Prop :=
  ∀ u : State, u.seq.ph = s.seq.ph → u.seq.step = s.seq.step → tick u = writePhase mode cls atEnd u

section
variable {tick : State → Move} {mode : Mode} {cls : DelayClass} {atEnd : State → State}

/-- One byte, and the end of the command or its next position. -/
theorem run_writerByte {s : State} (htick : tick s = writePhase mode cls atEnd s) (hasked : s.seq.asked = 0)
    (hok : s.transport.allOk) (n : Nat) :
    ∃ t : Tape Answer, t.allOk ∧
      run tick (n + 1) s = run tick n
        (if s.seq.sub.endsCommand mode then
          atEnd { (s.written [s.writeEvent s.seq.sub] t).atSub .hiSet with pend := cls }
        else (s.written [s.writeEvent s.seq.sub] t).atSub s.seq.sub.following) := by
  obtain ⟨t, ht, hput⟩ := put_allOk s.writerByteOf .port
    (State.afterByte mode fun u => atEnd { u with pend := cls }) hasked hok
  rw [State.afterByte_eq] at hput
  exact ⟨t, ht, run_go (htick.trans hput) n⟩

/-- The bytes that remain of a command, from whatever position its writer is at. -/
theorem run_remaining {sub : Sub} {l : List Sub} (hl : Sub.Remaining mode sub l) {s : State} (hsub : s.seq.sub = sub)
    (htick : WritesCommand tick mode cls atEnd s) (hasked : s.seq.asked = 0) (hok : s.transport.allOk) (n : Nat) :
    ∃ t : Tape Answer, t.allOk ∧
      run tick (n + l.length) s = run tick n
        (atEnd { (s.written (l.map s.writeEvent) t).atSub .hiSet with pend := cls }) := by
  induction hl generalizing s with
  | last hend =>
    subst hsub
    obtain ⟨t, ht, hrun⟩ := run_writerByte (htick s rfl rfl) hasked hok n
    rw [if_pos hend] at hrun
    exact ⟨t, ht, hrun⟩
  | @more _ l hmore _ ih =>
    subst hsub
    obtain ⟨t₁, ht₁, hfirst⟩ := run_writerByte (htick s rfl rfl) hasked hok (n + l.length)
    rw [hmore, if_neg Bool.false_ne_true] at hfirst
    obtain ⟨t, ht, hrest⟩ :=
      ih (s := (s.written [s.writeEvent s.seq.sub] t₁).atSub s.seq.sub.following) rfl htick hasked ht₁
    have hstate : ((s.written [s.writeEvent s.seq.sub] t₁).written (l.map s.writeEvent) t).atSub .hiSet =
        (s.written ((s.seq.sub :: l).map s.writeEvent) t).atSub .hiSet := by
      rw [State.written_written, List.map_cons, List.singleton_append]
    exact ⟨t, ht, hfirst.trans <| hrest.trans <|
      congrArg (fun u : State => run tick n (atEnd { u with pend := cls })) hstate⟩

/-- `WriteCommand` from its first position (40_encoder_writer R105, R106), after which the settle class is owed. -/
theorem run_command {s : State} (htick : WritesCommand tick mode cls atEnd s) (hsub : s.seq.sub = .hiSet)
    (hasked : s.seq.asked = 0) (hok : s.transport.allOk) (n : Nat) :
    ∃ t : Tape Answer, t.allOk ∧
      run tick (n + mode.positions.length) s = run tick n (atEnd
        { s.written (commandEvents s.cfg s.bl s.seq.cur mode s.seq.rs.toNat) t with pend := cls }) := by
  obtain ⟨t, ht, hrun⟩ := run_remaining mode.remaining_hiSet hsub htick hasked hok n
  rw [s.map_writeEvent_positions, State.atSub_of_sub_eq (s := s.written _ t) hsub] at hrun
  exact ⟨t, ht, hrun⟩

end

/-- Settles O16: the whole command by `run_command`, its closing bytes by `withoutEnable_signalEncode`. -/
theorem commandWritesOnePulsePerNibble : Obligations.CommandWritesOnePulsePerNibble := by
  rintro mode cls atEnd s ⟨hc, -⟩ hsub hasked hok
  have hoff (half : Half) := getLsbD_signalEncode_cfgE hc s.seq.cur half s.seq.rs.toNat s.bl
  obtain ⟨t, ht, hrun⟩ := run_command (tick := writePhase mode cls atEnd) (fun _ _ _ => rfl) hsub hasked hok 0
  refine ⟨t, ht, ?_, hoff .upper, hoff .lower, by simp⟩
  simp only [commandEvents, nibbleEvents, withoutEnable_signalEncode hc] at hrun
  rw [List.append_assoc]
  cases mode with
  | byte => exact hrun
  | nibble => exact hrun

end Sys2Proof.Machine
end

section
/-! PROOFS. `BL` through a request (spec 10_state R21, 40_encoder_writer R109, 41_init R137): the sequencer of every
request but BLINK leaves it as it was, and each PortByte is built from it. -/

namespace Sys2Proof.Machine

open Sys2Proof

/-! ### The updates and the primitives that leave `BL` as it was -/

/-- The update `f` leaves `BL` as it was. -/
def KeepsBacklight (f : State → State) : Prop := ∀ s, (f s).bl = s.bl

/-- Whatever the primitive `tick` leads to, `BL` is as it was. -/
def TickKeepsBacklight (tick : State → Move) : Prop := ∀ s, (tick s).All fun t => t.bl = s.bl

theorem KeepsBacklight.ite {c : State → Prop} {_ : DecidablePred c} {f g : State → State} (hf : KeepsBacklight f)
    (hg : KeepsBacklight g) : KeepsBacklight fun s => if c s then f s else g s := fun s => by
  dsimp only
  split
  · exact hf s
  · exact hg s

theorem keepsBacklight_goto (p : Phase) : KeepsBacklight fun s => s.goto p := State.goto_bl p

theorem keepsBacklight_issueCommand (v : Byte) (rs : Bit) : KeepsBacklight (State.issueCommand v rs) :=
  State.issueCommand_bl v rs

theorem keepsBacklight_called {onCall : State → State} (h : KeepsBacklight onCall) :
    KeepsBacklight (State.called onCall) :=
  .ite (fun _ => rfl) h

theorem keepsBacklight_hostEdits : KeepsBacklight State.hostEdits := fun s => by
  rcases s.hostEdits_cases with h | ⟨es, rest, -, h⟩ <;> rw [h]

theorem keepsBacklight_afterByte (mode : Mode) {atEnd : State → State} (h : KeepsBacklight atEnd) :
    KeepsBacklight (State.afterByte mode atEnd) := fun s => by
  rw [State.afterByte_eq]
  split
  · exact h _
  · rfl

theorem keepsBacklight_finishCommands {done : State → State} (h : KeepsBacklight done) :
    KeepsBacklight (State.finishCommands done) :=
  .ite h (keepsBacklight_goto .waitTail)

theorem busOpen_keepsBacklight {next : State → State} (h : KeepsBacklight next) : TickKeepsBacklight (busOpen next) :=
  fun s => by
  have hcalled : (s.called State.enterSession).bl = s.bl := keepsBacklight_called State.enterSession_bl s
  rcases busOpen_cases next s with ⟨-, hm⟩ | ⟨t, -, hm⟩ | ⟨t, -, hm⟩ <;> rw [hm]
  · exact hcalled
  · exact (h _).trans hcalled
  · exact hcalled

theorem put_keepsBacklight (b : Byte) (kind : WriteKind) {next : State → State} (h : KeepsBacklight next) :
    TickKeepsBacklight (put b kind next) := fun s => by
  have hcalled : (s.called State.countWrite).bl = s.bl := keepsBacklight_called State.countWrite_bl s
  rcases put_cases b kind next s with ⟨-, hm⟩ | ⟨t, -, hm⟩ | ⟨t, -, hm⟩ <;> rw [hm]
  · exact hcalled
  · exact (h _).trans hcalled
  · exact hcalled

theorem waitFor_keepsBacklight (c : DelayClass) {next : State → State} (h : KeepsBacklight next) :
    TickKeepsBacklight (waitFor c next) := fun s => by
  rcases waitFor_cases c next s with ⟨-, hm⟩ | ⟨late, t, -, hm⟩ <;> rw [hm]
  · exact rfl
  · exact h _

theorem memRead_keepsBacklight (addr : Word) {onByte : Option Byte → State → Move}
    (h : ∀ v, TickKeepsBacklight (onByte v)) : TickKeepsBacklight (memRead addr onByte) := fun s =>
  (h _ _).mono fun _ ht => ht.trans (keepsBacklight_hostEdits s)

/-! ### The phases -/

theorem respPhase_keepsBacklight : TickKeepsBacklight respPhase := fun _ => rfl

theorem openPhase_keepsBacklight {first : State → State} (h : KeepsBacklight first) :
    TickKeepsBacklight (openPhase first) :=
  busOpen_keepsBacklight (.ite (keepsBacklight_goto .preWrite) h)

theorem prePhase_keepsBacklight {first : State → State} (h : KeepsBacklight first) :
    TickKeepsBacklight (prePhase first) :=
  fun s => put_keepsBacklight s.cfg.gpioReg .pre h s

theorem closePhase_keepsBacklight {after : State → State} (h : KeepsBacklight after) :
    TickKeepsBacklight (closePhase after) := fun s => by
  rw [closePhase, Move.all_go]
  split
  · rfl
  · exact h s.endSession

theorem waitInPhase_keepsBacklight : TickKeepsBacklight waitInPhase := fun s => by
  unfold waitInPhase
  split
  · exact State.startCommand_bl s
  · exact waitFor_keepsBacklight s.pend (fun u => State.startCommand_bl { u with pend := .none }) s

theorem writePhase_keepsBacklight (mode : Mode) (cls : DelayClass) {atEnd : State → State} (h : KeepsBacklight atEnd) :
    TickKeepsBacklight (writePhase mode cls atEnd) := fun s =>
  put_keepsBacklight s.writerByteOf .port (keepsBacklight_afterByte mode fun u => h { u with pend := cls }) s

theorem waitTailPhase_keepsBacklight {done : State → State} (h : KeepsBacklight done) :
    TickKeepsBacklight (waitTailPhase done) := fun s => by
  unfold waitTailPhase
  split
  · exact h s
  · exact waitFor_keepsBacklight s.pend (fun u => h { u with pend := .none }) s

/-! ### What the requests do between their primitives -/

theorem keepsBacklight_putcChar : KeepsBacklight putcChar := fun _ => rfl

theorem keepsBacklight_cursorSet : KeepsBacklight fun s => s.issueCommand (cursorSet s.posOf) 0 := fun _ => rfl

theorem keepsBacklight_putcFirst : KeepsBacklight putcFirst := .ite keepsBacklight_putcChar keepsBacklight_cursorSet

theorem keepsBacklight_putcNext : KeepsBacklight putcNext := .ite keepsBacklight_putcChar (keepsBacklight_goto .close)

theorem keepsBacklight_putsLoop : KeepsBacklight putsLoop :=
  .ite (keepsBacklight_goto .close) (keepsBacklight_goto .read)

theorem keepsBacklight_putsFirst : KeepsBacklight putsFirst := .ite keepsBacklight_putsLoop keepsBacklight_cursorSet

theorem keepsBacklight_putsNext : KeepsBacklight putsNext :=
  .ite keepsBacklight_putsLoop (.ite State.raiseBufFault_bl fun s =>
    keepsBacklight_putsLoop { s with seq := { s.seq with idx := s.seq.idx + 1 } })

theorem putsByte_keepsBacklight (v : Option Byte) : TickKeepsBacklight (putsByte v) := fun s => by
  cases v with
  | none => exact State.raiseBufFault_bl s
  | some b =>
    unfold putsByte
    dsimp only
    split
    · exact State.goto_bl .close s
    · exact State.issueCommand_bl b 1 s

theorem keepsBacklight_initxLoop : KeepsBacklight initxLoop :=
  .ite (keepsBacklight_goto .raw) (keepsBacklight_goto .close)

theorem keepsBacklight_initxNext : KeepsBacklight initxNext := fun s =>
  keepsBacklight_initxLoop { s with seq := { s.seq with idx := s.seq.idx + 1 } }

theorem keepsBacklight_initdStep (k : BitVec 4) : KeepsBacklight (initdStep k) := fun s => by
  unfold initdStep
  split <;> rfl

theorem keepsBacklight_initdNext : KeepsBacklight initdNext := fun s => keepsBacklight_initdStep (s.seq.step + 1) s

theorem keepsBacklight_initdDone : KeepsBacklight initdDone := fun _ => rfl

/-! ### The requests' sequencers, phase by phase -/

theorem initxTick_keepsBacklight : TickKeepsBacklight initxTick := fun s => by
  unfold initxTick
  cases s.seq.ph
  case openBus => exact openPhase_keepsBacklight keepsBacklight_initxLoop s
  case preWrite => exact prePhase_keepsBacklight keepsBacklight_initxLoop s
  case raw =>
    rcases s.cfg.expanderInitSeq[s.seq.idx.toNat]? with _ | b
    · exact Move.all_refused _ _
    · exact put_keepsBacklight b .raw keepsBacklight_initxNext s
  case close => exact closePhase_keepsBacklight State.respondOk_bl s
  case resp => exact respPhase_keepsBacklight s
  all_goals exact Move.all_refused _ _

theorem initdTick_keepsBacklight : TickKeepsBacklight initdTick := fun s => by
  unfold initdTick
  cases s.seq.ph
  case openBus => exact openPhase_keepsBacklight (keepsBacklight_initdStep 1) s
  case preWrite => exact prePhase_keepsBacklight (keepsBacklight_initdStep 1) s
  case write =>
    rcases initRom s.seq.step with _ | row
    · exact Move.all_refused _ _
    · exact writePhase_keepsBacklight row.mode row.cls keepsBacklight_initdNext s
  case waitIn => exact waitInPhase_keepsBacklight s
  case close => exact closePhase_keepsBacklight (keepsBacklight_finishCommands keepsBacklight_initdDone) s
  case waitTail => exact waitTailPhase_keepsBacklight keepsBacklight_initdDone s
  case resp => exact respPhase_keepsBacklight s
  all_goals exact Move.all_refused _ _

theorem putcTick_keepsBacklight : TickKeepsBacklight putcTick := fun s => by
  unfold putcTick
  cases s.seq.ph
  case openBus => exact openPhase_keepsBacklight keepsBacklight_putcFirst s
  case preWrite => exact prePhase_keepsBacklight keepsBacklight_putcFirst s
  case write => exact writePhase_keepsBacklight .nibble .std keepsBacklight_putcNext s
  case waitIn => exact waitInPhase_keepsBacklight s
  case close => exact closePhase_keepsBacklight (keepsBacklight_finishCommands State.respondOk_bl) s
  case waitTail => exact waitTailPhase_keepsBacklight State.respondOk_bl s
  case resp => exact respPhase_keepsBacklight s
  all_goals exact Move.all_refused _ _

theorem putsTick_keepsBacklight : TickKeepsBacklight putsTick := fun s => by
  unfold putsTick
  cases s.seq.ph
  case openBus => exact openPhase_keepsBacklight keepsBacklight_putsFirst s
  case preWrite => exact prePhase_keepsBacklight keepsBacklight_putsFirst s
  case write => exact writePhase_keepsBacklight .nibble .std keepsBacklight_putsNext s
  case waitIn => exact waitInPhase_keepsBacklight s
  case read => exact memRead_keepsBacklight (bufferAddr s.bufOf s.seq.idx) putsByte_keepsBacklight s
  case close => exact closePhase_keepsBacklight (keepsBacklight_finishCommands State.respondOk_bl) s
  case waitTail => exact waitTailPhase_keepsBacklight State.respondOk_bl s
  case resp => exact respPhase_keepsBacklight s
  case faulted => exact rfl
  all_goals exact Move.all_refused _ _

theorem setblTick_keepsBacklight : TickKeepsBacklight setblTick := fun s => by
  unfold setblTick
  cases s.seq.ph
  case openBus => exact openPhase_keepsBacklight (keepsBacklight_goto .blWrite) s
  case preWrite => exact prePhase_keepsBacklight (keepsBacklight_goto .blWrite) s
  case blWrite => exact put_keepsBacklight (backlightByte s.cfg s.bl) .port (keepsBacklight_goto .close) s
  case close => exact closePhase_keepsBacklight State.respondOk_bl s
  case resp => exact respPhase_keepsBacklight s
  all_goals exact Move.all_refused _ _

theorem clearTick_keepsBacklight : TickKeepsBacklight clearTick := fun s => by
  have hfirst : KeepsBacklight clearFirst := keepsBacklight_issueCommand 0x01 0
  unfold clearTick
  cases s.seq.ph
  case openBus => exact openPhase_keepsBacklight hfirst s
  case preWrite => exact prePhase_keepsBacklight hfirst s
  case write => exact writePhase_keepsBacklight .nibble .clear (keepsBacklight_goto .close) s
  case waitIn => exact waitInPhase_keepsBacklight s
  case close => exact closePhase_keepsBacklight (keepsBacklight_finishCommands State.respondOk_bl) s
  case waitTail => exact waitTailPhase_keepsBacklight State.respondOk_bl s
  case resp => exact respPhase_keepsBacklight s
  all_goals exact Move.all_refused _ _

/-- BLINK alone writes `BL` while it runs; SETBL has written it before its first primitive (43_backlight_clear R190). -/
theorem tickOf_keepsBacklight {i : Instr} (hi : ∀ n, i ≠ .blink n) : TickKeepsBacklight (tickOf i) := by
  cases i with
  | initx => exact initxTick_keepsBacklight
  | initd => exact initdTick_keepsBacklight
  | putc val pos => exact putcTick_keepsBacklight
  | puts buf pos len => exact putsTick_keepsBacklight
  | setbl on => exact setblTick_keepsBacklight
  | blink count => exact absurd rfl (hi count)
  | clear => exact clearTick_keepsBacklight

/-- SETBL and BLINK alone write `BL` at their acceptance (10_state R21). -/
theorem keepsBacklight_startOf {i : Instr} (hsetbl : ∀ on, i ≠ .setbl on) (hblink : ∀ n, i ≠ .blink n) :
    KeepsBacklight (startOf i) := by
  cases i with
  | setbl on => exact absurd rfl (hsetbl on)
  | blink n => exact absurd rfl (hblink n)
  | initx | initd | putc | puts | clear => exact fun _ => rfl

/-! ### The run, and the bytes it writes -/

/-- From `s` to `t` the value of `BL` stays, and every event added is lawful under it. -/
structure CarriesBacklight (s t : State) : Prop where
  bl_eq : t.bl = s.bl
  extends_lawful : Extends (Event.Lawful s.cfg s.bl) s t

theorem CarriesBacklight.refl (s : State) : CarriesBacklight s s := ⟨rfl, .refl _ s⟩

theorem CarriesBacklight.trans {s t u : State} (hst : CarriesBacklight s t) (htu : CarriesBacklight t u) :
    CarriesBacklight s u := by
  have hmore := htu.extends_lawful
  rw [hst.extends_lawful.cfg_eq, hst.bl_eq] at hmore
  exact ⟨htu.bl_eq.trans hst.bl_eq, hst.extends_lawful.trans hmore⟩

theorem tick_carriesBacklight {tick : State → Move} (hrecords : RecordsLawfully tick) (hbl : TickKeepsBacklight tick)
    (s : State) : (tick s).All (CarriesBacklight s) := by
  have hadded := hrecords s
  have hkept := hbl s
  cases hmove : tick s with
  | go t | halt t =>
    rw [hmove] at hadded hkept
    exact ⟨hkept, hadded⟩
  | refused r => exact Move.all_refused _ r

theorem run_carriesBacklight {tick : State → Move} (hrecords : RecordsLawfully tick) (hbl : TickKeepsBacklight tick)
    {n : Nat} {s t : State} (h : run tick n s = .next t) : CarriesBacklight s t := by
  have htick := tick_carriesBacklight hrecords hbl
  refine run_keeps (CarriesBacklight s) (fun u v hu hv => hu.trans ?_) (fun u v hu hv => hu.trans ?_) n s t (.refl s) h
  · simpa [hv] using htick u
  · simpa [hv] using htick u

theorem exec_carriesBacklight {i : Instr} (hsetbl : ∀ on, i ≠ .setbl on) (hblink : ∀ n, i ≠ .blink n) {s t : State}
    (h : exec i s = .next t) : CarriesBacklight s t := by
  rw [exec_eq_serve] at h
  by_cases hidle : s.seq.ph = .idle
  · rw [serve_idle hidle] at h
    have hrecord : SameRecord s (s.accept (encode i)) := ⟨rfl, rfl, rfl⟩
    have haccept : CarriesBacklight s (s.accept (encode i)) := ⟨State.accept_bl _ s, hrecord.extends _⟩
    have hstart : CarriesBacklight (s.accept (encode i)) (startOf i (s.accept (encode i))) :=
      ⟨keepsBacklight_startOf hsetbl hblink _, (quiet_startOf i _).extends _⟩
    exact (haccept.trans hstart).trans (run_carriesBacklight (tickOf_records i) (tickOf_keepsBacklight hblink) h)
  by_cases hfaulted : s.seq.ph = .faulted
  · rw [serve_faulted hfaulted] at h
    cases h
  · rw [serve_busy hidle hfaulted] at h
    cases h
    exact .refl s

/-- The backlight line shares its position with no other line, the enable line included (00_scope R8). -/
theorem getLsbD_writerByte_cfgBl {c : Config} (hc : c.positions.Nodup) (v : Byte) (rs : Nat) (bl : Bit) (sub : Sub) :
    (writerByte c v rs bl sub).getLsbD c.cfgBl.toNat = bl.getLsbD 0 := by
  have hE : c.cfgBl ≠ c.cfgE := (Config.cfgE_ne_others hc).1.symm
  cases sub <;>
    simp [writerByte, getLsbD_withEnable, getLsbD_withoutEnable, getLsbD_signalEncode_cfgBl hc, hE]

/-- A PortByte carries the `BL` it was built from (40_encoder_writer R109). -/
theorem Event.Lawful.port_carriesBacklight {c : Config} (hc : c.positions.Nodup) {bl : Bit} {b : Byte} {r : Answer}
    (h : Event.Lawful c bl (.wrote b .port r)) : b.getLsbD c.cfgBl.toNat = bl.getLsbD 0 := by
  cases h with
  | writerByte v rs sub => exact getLsbD_writerByte_cfgBl hc v rs bl sub
  | backlightByte => simp [getLsbD_backlightByte]

/-- Settles O42: `BL` keeps its value through the run, and every PortByte the run adds is built from it. -/
theorem otherRequestsCarryBacklight : Obligations.OtherRequestsCarryBacklight := by
  intro s t i hsetbl hblink h
  obtain ⟨hbl, -, es, htrace, -, hes⟩ := exec_carriesBacklight hsetbl hblink h
  refine ⟨hbl, fun ⟨hdistinct, _⟩ events hevents b r hmem => ?_⟩
  obtain rfl : es = events := List.append_cancel_left (htrace.symm.trans hevents)
  exact (hes _ hmem).port_carriesBacklight hdistinct

end Sys2Proof.Machine
end

section
/-! PROOFS. A request whose agents all answer, every call with OK: what its session, its commands with the delays owed
between them, and its end add to the trace (spec 20_memory R56, 40_encoder_writer R105, R106), for any sequencer made of
those phases. -/

namespace Sys2Proof.Machine

open Sys2Proof

/-! ### What such a request leaves as it was, and what it adds -/

/-- The block between two primitives of a request in good order: no call is outstanding, no abort is on its way, and the
agents will answer, the transport always OK. -/
structure State.Ready (s : State) : Prop where
  asked_eq : s.seq.asked = 0
  abort_eq : s.seq.abort = 0
  allOk : s.transport.allOk
  live : s.timer.live

/-- `s` without what the bus, the timer and the sequencer change while every call is answered OK. -/
def State.frame (s : State) : State :=
  { s with
    seq := Seq.zero
    session := 0
    pend := .none
    errWidx := 0
    transport := ⟨[], none⟩
    timer := ⟨[], none⟩
    pins := none
    trace := [] }

/-- A request in good order has come from `s` to `u`, adding `events`, which count its writes; the rest is as it was. -/
structure Progress (s : State) (events : List Event) (u : State) : Prop where
  ready : u.Ready
  frame_eq : u.frame = s.frame
  trace_eq : u.trace.map Event.untimed = s.trace.map Event.untimed ++ events
  errWidx_eq : u.errWidx = s.errWidx + BitVec.ofNat 64 (countWrites events)

theorem Progress.cfg_eq {s u : State} {events : List Event} (h : Progress s events u) : u.cfg = s.cfg := by
  have hcfg : u.frame.cfg = s.frame.cfg := by rw [h.frame_eq]
  exact hcfg

theorem Progress.bl_eq {s u : State} {events : List Event} (h : Progress s events u) : u.bl = s.bl := by
  have hbl : u.frame.bl = s.frame.bl := by rw [h.frame_eq]
  exact hbl

theorem Progress.refl {s : State} (h : s.Ready) : Progress s [] s := ⟨h, rfl, by simp, by simp [countWrites]⟩

theorem Progress.trans {s u w : State} {l₁ l₂ : List Event} (h₁ : Progress s l₁ u) (h₂ : Progress u l₂ w) :
    Progress s (l₁ ++ l₂) w where
  ready := h₂.ready
  frame_eq := h₂.frame_eq.trans h₁.frame_eq
  trace_eq := by rw [h₂.trace_eq, h₁.trace_eq, List.append_assoc]
  errWidx_eq := by
    rw [h₂.errWidx_eq, h₁.errWidx_eq, countWrites, countWrites, countWrites, List.countP_append, BitVec.ofNat_add,
      BitVec.add_assoc]

/-- Where the sequencer stands and what delay it owes are not part of what a request adds. -/
theorem Progress.reposition {s u : State} {l : List Event} (h : Progress s l u) {q : Seq} (hasked : q.asked = 0)
    (habort : q.abort = 0) (d : DelayClass) (session : Bit) :
    Progress s l { u with seq := q, pend := d, session := session } :=
  ⟨⟨hasked, habort, h.ready.allOk, h.ready.live⟩, h.frame_eq, h.trace_eq, h.errWidx_eq⟩

theorem Progress.of_repositioned {s u : State} {l : List Event} {q : Seq} {d : DelayClass} {session : Bit}
    (h : Progress { s with seq := q, pend := d, session := session } l u) : Progress s l u :=
  ⟨h.ready, h.frame_eq, h.trace_eq, h.errWidx_eq⟩

/-- The wait for a delay, where one is owed (40_encoder_writer R106). -/
def owedEvents (d : DelayClass) : List Event := if d = .none then [] else [delayEvent d]

@[simp] theorem owedEvents_none : owedEvents .none = [] := rfl

theorem owedEvents_of_ne {d : DelayClass} (h : d ≠ .none) : owedEvents d = [delayEvent d] := if_neg h

/-! ### Runs that come to a state -/

/-- Within `bound` primitives the sequencer comes from `s` to a state that satisfies `P`. -/
def Leads (tick : State → Move) (bound : Nat) (s : State) (P : State → Prop) : Prop :=
  ∀ n, bound ≤ n → ∃ u m, P u ∧ n ≤ m + bound ∧ run tick n s = run tick m u

section
variable {tick : State → Move} {s : State} {P Q : State → Prop} {a b : Nat}

theorem leads_here (h : P s) : Leads tick 0 s P := fun n _ => ⟨s, n, h, by omega, rfl⟩

theorem leads_of_go {t : State} (hgo : tick s = .go t) (h : Leads tick a t P) : Leads tick (a + 1) s P := fun n hn => by
  obtain ⟨m, rfl⟩ : ∃ m, n = m + 1 := ⟨n - 1, by omega⟩
  obtain ⟨u, k, hu, hk, hrun⟩ := h m (by omega)
  exact ⟨u, k, hu, by omega, (run_go hgo m).trans hrun⟩

theorem Leads.bind (h : Leads tick a s P) (hnext : ∀ u, P u → Leads tick b u Q) : Leads tick (a + b) s Q :=
  fun n hn => by
  obtain ⟨u, m, hu, hm, hrun⟩ := h n (by omega)
  obtain ⟨w, k, hw, hk, hrun'⟩ := hnext u hu m (by omega)
  exact ⟨w, k, hw, by omega, hrun.trans hrun'⟩

theorem Leads.mono (h : Leads tick a s P) (hab : a ≤ b) (hPQ : ∀ u, P u → Q u) : Leads tick b s Q := fun n hn => by
  obtain ⟨u, m, hu, hm, hrun⟩ := h n (hab.trans hn)
  exact ⟨u, m, hPQ u hu, by omega, hrun⟩

/-- A run long enough ends where the sequencer halts. -/
theorem Leads.run_eq (h : Leads tick a s P) {n : Nat} (hn : a < n) :
    ∃ u, P u ∧ ∀ t, tick u = .halt t → run tick n s = .next t := by
  obtain ⟨u, m, hu, hm, hrun⟩ := h n hn.le
  obtain ⟨k, rfl⟩ : ∃ k, m = k + 1 := ⟨m - 1, by omega⟩
  exact ⟨u, hu, fun t ht => hrun.trans (run_halt ht k)⟩

end

/-! ### The primitives -/

theorem Tape.draw_of_live {α : Type} [DecidableEq α] {t : Tape α} (h : t.live) :
    ∃ a t', t'.live ∧ t.draw = some (a, t') := by
  rcases t.draw_cases with ⟨a, l, -, hdraw⟩ | ⟨a, -, -, hdraw⟩ | ⟨-, hnone, -⟩
  · exact ⟨a, ⟨l, t.rest⟩, h, hdraw⟩
  · exact ⟨a, t, h, hdraw⟩
  · exact absurd hnone h

theorem busOpen_progress (next : State → State) {s : State} (hs : s.Ready) :
    ∃ u, Progress s [.opened s.cfg.devAddr .ok] u ∧ u.session = 1 ∧ u.pend = s.pend ∧ busOpen next s = .go (next u) := by
  obtain ⟨t, ht, hdraw⟩ := Tape.draw_of_allOk hs.allOk
  refine ⟨_, ?_, ?_, ?_, busOpen_ok hdraw⟩ <;> rw [State.called_fresh hs.asked_eq]
  · exact ⟨⟨rfl, hs.abort_eq, ht, hs.live⟩, rfl, List.map_append, (BitVec.add_zero s.errWidx).symm⟩
  · rfl
  · rfl

theorem written_progress {s : State} (hs : s.Ready) {t : Tape Answer} (ht : t.allOk) {l : List Event}
    (huntimed : l.map Event.untimed = l) (hwrites : countWrites l = l.length) : Progress s l (s.written l t) where
  ready := ⟨hs.asked_eq, hs.abort_eq, ht, hs.live⟩
  frame_eq := rfl
  trace_eq := by simp [State.written, huntimed]
  errWidx_eq := by rw [hwrites]; rfl

theorem put_progress (b : Byte) (kind : WriteKind) (next : State → State) {s : State} (hs : s.Ready) :
    ∃ u, Progress s [.wrote b kind .ok] u ∧ u.seq = s.seq ∧ u.session = s.session ∧ u.pend = s.pend ∧
      put b kind next s = .go (next u) := by
  obtain ⟨t, ht, hput⟩ := put_allOk b kind next hs.asked_eq hs.allOk
  exact ⟨s.written [.wrote b kind .ok] t, written_progress hs ht rfl rfl, rfl, rfl, rfl, hput⟩

theorem waitFor_progress (next : State → State) {s : State} (hs : s.Ready) (hpend : s.pend ≠ .none) :
    ∃ u, Progress s (owedEvents s.pend) u ∧ u.seq = s.seq ∧ u.session = s.session ∧
      waitFor s.pend next s = .go (next u) := by
  obtain ⟨late, t, ht, hdraw⟩ := Tape.draw_of_live hs.live
  refine ⟨_, ?_, ?_, ?_, waitFor_done hdraw⟩
  · rw [owedEvents_of_ne hpend]
    exact ⟨⟨hs.asked_eq, hs.abort_eq, hs.allOk, ht⟩, rfl, List.map_append, (BitVec.add_zero s.errWidx).symm⟩
  · rfl
  · rfl

/-! ### The events of a command -/

theorem map_untimed_commandEvents (c : Config) (bl : Bit) (v : Byte) (mode : Mode) (rs : Nat) :
    (commandEvents c bl v mode rs).map Event.untimed = commandEvents c bl v mode rs := by
  cases mode <;> rfl

/-- A command is made of writes alone. -/
theorem countWrites_commandEvents (c : Config) (bl : Bit) (v : Byte) (mode : Mode) (rs : Nat) :
    countWrites (commandEvents c bl v mode rs) = (commandEvents c bl v mode rs).length := by
  cases mode <;> rfl

theorem Mode.length_positions_le (mode : Mode) : mode.positions.length ≤ 6 := by cases mode <;> decide

/-! ### The phases of a request that writes commands -/

/-- The sequencer `tick` of a request that writes commands in one session: `first` follows the session's begin, `done` the
last delay (40_encoder_writer R106). Its phase WRITE is a matter of each command. -/
structure CommandRequest (tick : State → Move) (first done : State → State) : Prop where
  openBus : ∀ u : State, u.seq.ph = .openBus → tick u = openPhase first u
  preWrite : ∀ u : State, u.seq.ph = .preWrite → tick u = prePhase first u
  waitIn : ∀ u : State, u.seq.ph = .waitIn → tick u = waitInPhase u
  close : ∀ u : State, u.seq.ph = .close → tick u = closePhase (State.finishCommands done) u
  waitTail : ∀ u : State, u.seq.ph = .waitTail → tick u = waitTailPhase done u
  resp : ∀ u : State, u.seq.ph = .resp → tick u = respPhase u

section
variable {tick : State → Move} {first done : State → State} (htick : CommandRequest tick first done)
include htick

/-- `BeginSession()` (20_memory R56). -/
theorem CommandRequest.leads_begin {s : State} (hph : s.seq.ph = .openBus) (hs : s.Ready) :
    Leads tick 2 s fun u => ∃ w, Progress s (beginEvents s.cfg) w ∧ w.session = 1 ∧ w.pend = s.pend ∧ u = first w := by
  obtain ⟨u, hu, hsession, hpend, hopen⟩ :=
    busOpen_progress (fun u => if u.cfg.regPrefix then u.goto .preWrite else first u) hs
  have hgo := (htick.openBus s hph).trans hopen
  cases hprefix : s.cfg.regPrefix with
  | false =>
    refine (leads_of_go hgo (leads_here ⟨u, ?_, hsession, hpend, ?_⟩)).mono (by decide) fun _ h => h
    · simpa [beginEvents, hprefix] using hu
    · simp [hu.cfg_eq, hprefix]
  | true =>
    rw [hu.cfg_eq, hprefix, if_pos rfl] at hgo
    have hready : (u.goto .preWrite).Ready :=
      (hu.reposition (q := { u.seq with ph := .preWrite }) hu.ready.asked_eq hu.ready.abort_eq u.pend u.session).ready
    obtain ⟨w, hw, -, hwsession, hwpend, hput⟩ := put_progress (u.goto .preWrite).cfg.gpioReg .pre first hready
    refine leads_of_go hgo (leads_of_go ((htick.preWrite _ rfl).trans hput)
      (leads_here ⟨w, ?_, hwsession.trans hsession, hwpend.trans hpend, rfl⟩))
    simpa [beginEvents, hprefix, hu.cfg_eq] using hu.trans (Progress.of_repositioned hw)

/-- `FinishCommands()` (40_encoder_writer R106). -/
theorem CommandRequest.leads_finish {s : State} (hph : s.seq.ph = .close) (hs : s.Ready) :
    Leads tick 2 s fun u => ∃ w, Progress s (.closed :: owedEvents s.pend) w ∧ w.session = 0 ∧ w.pend = .none ∧
      u = done w := by
  have hclosed : Progress s [.closed] s.endSession :=
    ⟨⟨hs.asked_eq, hs.abort_eq, hs.allOk, hs.live⟩, rfl, List.map_append, (BitVec.add_zero s.errWidx).symm⟩
  have hgo : tick s = .go (if s.pend = .none then done s.endSession else s.endSession.goto .waitTail) :=
    (htick.close s hph).trans (closePhase_normal hs.abort_eq)
  by_cases hpend : s.pend = .none
  · refine (leads_of_go hgo (leads_here ⟨s.endSession, ?_, rfl, hpend, if_pos hpend⟩)).mono (by decide) fun _ h => h
    simpa [hpend] using hclosed
  · have hready : (s.endSession.goto .waitTail).Ready := ⟨hs.asked_eq, hs.abort_eq, hs.allOk, hs.live⟩
    obtain ⟨w, hw, -, hsession, hwait⟩ := waitFor_progress (fun u => done { u with pend := .none }) hready hpend
    have htail : tick (s.endSession.goto .waitTail) = .go (done { w with pend := .none }) :=
      (htick.waitTail _ rfl).trans ((if_neg hpend).trans hwait)
    rw [if_neg hpend] at hgo
    refine leads_of_go hgo (leads_of_go htail (leads_here ⟨{ w with pend := .none }, ?_, hsession, rfl, rfl⟩))
    exact hclosed.trans ((Progress.of_repositioned hw).reposition hw.ready.asked_eq hw.ready.abort_eq .none w.session)

/-- The delay owed before a command, where there is one, up to the command's first byte (40_encoder_writer R106). -/
theorem CommandRequest.leads_owed (v : Byte) (rs : Bit) {s : State} (hs : s.Ready) :
    Leads tick 1 (s.issueCommand v rs) fun u => Progress s (owedEvents s.pend) u ∧
      u.seq = { s.seq with ph := .write, sub := .hiSet, cur := v, issued := v, rs := rs } := by
  by_cases hpend : s.pend = .none
  · refine (leads_here ⟨?_, ?_⟩).mono (Nat.zero_le 1) fun _ h => h
    · rw [hpend]
      exact (Progress.refl hs).reposition (q := (s.issueCommand v rs).seq) hs.asked_eq hs.abort_eq s.pend s.session
    · simp [State.issueCommand, hpend]
  · have hready : (s.issueCommand v rs).Ready := ⟨hs.asked_eq, hs.abort_eq, hs.allOk, hs.live⟩
    obtain ⟨w, hw, hseq, -, hwait⟩ :=
      waitFor_progress (fun u => { u with pend := .none }.startCommand) hready hpend
    have hph : (s.issueCommand v rs).seq.ph = .waitIn := by simp [State.issueCommand, hpend]
    have hgo : tick (s.issueCommand v rs) = .go { w with pend := .none }.startCommand :=
      (htick.waitIn _ hph).trans ((if_neg hpend).trans hwait)
    refine leads_of_go hgo (leads_here ⟨?_, ?_⟩)
    · exact (Progress.of_repositioned hw).reposition (q := { w.seq with cur := w.seq.issued, ph := .write })
        hw.ready.asked_eq hw.ready.abort_eq .none w.session
    · rw [State.startCommand, hseq]
      rfl

end

/-- `WriteCommand`, after which the settle class is owed (40_encoder_writer R105, R106). -/
theorem leads_command {tick : State → Move} {mode : Mode} {cls : DelayClass} {atEnd : State → State} {s : State}
    (hwrite : WritesCommand tick mode cls atEnd s) (hsub : s.seq.sub = .hiSet) (hs : s.Ready) :
    Leads tick 6 s fun u => ∃ w, Progress s (commandEvents s.cfg s.bl s.seq.cur mode s.seq.rs.toNat) w ∧
      w.pend = cls ∧ w.seq = s.seq ∧ u = atEnd w := fun n hn => by
  have hlen := mode.length_positions_le
  obtain ⟨t, ht, hrun⟩ := run_command hwrite hsub hs.asked_eq hs.allOk (n - mode.positions.length)
  rw [Nat.sub_add_cancel (hlen.trans hn)] at hrun
  have hwritten := written_progress hs ht (map_untimed_commandEvents s.cfg s.bl s.seq.cur mode s.seq.rs.toNat)
    (countWrites_commandEvents ..)
  exact ⟨_, _, ⟨_, hwritten.reposition hs.asked_eq hs.abort_eq cls s.session, rfl, rfl, rfl⟩, by omega, hrun⟩

/-- `IssueCommand` (40_encoder_writer R106): the delay owed, the command, and then the class it owes itself. -/
theorem CommandRequest.leads_issueCommand {tick : State → Move} {first done : State → State}
    (htick : CommandRequest tick first done) {mode : Mode} {cls : DelayClass} {atEnd : State → State} {s : State}
    (hwrite : ∀ u : State, u.seq.ph = .write → u.seq.step = s.seq.step → tick u = writePhase mode cls atEnd u)
    (v : Byte) (rs : Bit) (hs : s.Ready) :
    Leads tick 7 (s.issueCommand v rs) fun u => ∃ w,
      Progress s (owedEvents s.pend ++ commandEvents s.cfg s.bl v mode rs.toNat) w ∧ w.pend = cls ∧
      w.seq = { s.seq with ph := .write, sub := .hiSet, cur := v, issued := v, rs := rs } ∧ u = atEnd w := by
  refine (htick.leads_owed v rs hs).bind (b := 6) fun u ⟨hu, hseq⟩ => ?_
  have hwrites : WritesCommand tick mode cls atEnd u := fun w hph hstep =>
    hwrite w (by rw [hph, hseq]) (by rw [hstep, hseq])
  refine (leads_command hwrites (by rw [hseq]) hu.ready).mono (Nat.le_refl 6) ?_
  rintro _ ⟨w, hw, hpend, hwseq, rfl⟩
  rw [hseq, hu.cfg_eq, hu.bl_eq] at hw
  exact ⟨w, hu.trans hw, hpend, hwseq.trans hseq, rfl⟩

end Sys2Proof.Machine
end

section
/-! PROOFS. INITD whose agents all answer, every call with OK (spec 41_init R131, R132, R138): its ten steps one after
another, the trace they leave, and the counts of that trace. -/

namespace Sys2Proof.Machine

open Sys2Proof

/-! ### The rows of the step table -/

/-- Steps 1 to 4 are in byte mode, steps 5 to 10 in nibble mode (41_init R131). -/
theorem initRom_mode (k : BitVec 4) (h1 : 1 ≤ k.toNat) (h10 : k.toNat ≤ 10) :
    ∃ row, initRom k = some row ∧ row.mode = if k.toNat ≤ 4 then .byte else .nibble := by
  have hmode : (initRom k).map InitStep.mode = some (if k.toNat ≤ 4 then .byte else .nibble) := by
    revert k
    decide
  obtain ⟨row, hrow, hrowMode⟩ := Option.map_eq_some_iff.mp hmode
  exact ⟨row, hrow, hrowMode⟩

/-- Every row owes a delay (41_init R131). -/
theorem initRom_cls_ne_none {k : BitVec 4} {row : InitStep} (h : initRom k = some row) : row.cls ≠ .none := by
  have hcls : ∀ r ∈ initRom k, r.cls ≠ .none := by
    clear h
    revert k
    decide
  exact hcls row h

/-! ### The run -/

theorem initdTick_commandRequest : CommandRequest initdTick (initdStep 1) initdDone where
  openBus u h := by simp [initdTick, h]
  preWrite u h := by simp [initdTick, h]
  waitIn u h := by simp [initdTick, h]
  close u h := by simp [initdTick, h]
  waitTail u h := by simp [initdTick, h]
  resp u h := by simp [initdTick, h]

/-- Step `k`: the delay owed by the step before it, its command, and the delay it owes itself (41_init R132, R133). -/
theorem leads_initdStep {k : BitVec 4} {row : InitStep} (hrow : initRom k = some row) {s : State} (hs : s.Ready) :
    Leads initdTick 7 (initdStep k s) fun u => ∃ w,
      Progress s (owedEvents s.pend ++ initdStepEvents s.cfg s.bl k fun _ => []) w ∧ w.pend = row.cls ∧
      u = initdStep (k + 1) w := by
  have hstep : initdStep k s = State.issueCommand row.value 0 { s with seq := { s.seq with step := k } } := by
    simp [initdStep, hrow]
  have hwrite (u : State) (hph : u.seq.ph = .write) (hustep : u.seq.step = k) :
      initdTick u = writePhase row.mode row.cls initdNext u := by
    simp [initdTick, hph, hustep, hrow]
  have hready : State.Ready { s with seq := { s.seq with step := k } } := ⟨hs.asked_eq, hs.abort_eq, hs.allOk, hs.live⟩
  rw [hstep]
  refine (initdTick_commandRequest.leads_issueCommand hwrite row.value 0 hready).mono (Nat.le_refl 7) ?_
  rintro _ ⟨w, hw, hpend, hseq, rfl⟩
  refine ⟨w, ?_, hpend, ?_⟩
  · simpa [initdStepEvents, hrow] using Progress.of_repositioned hw
  · rw [initdNext, hseq]

/-- The steps that another one follows. -/
def earlierSteps : List (BitVec 4) := [1, 2, 3, 4, 5, 6, 7, 8, 9]

theorem earlierSteps_getElem? : ∀ j < 9, earlierSteps[j]? = some (BitVec.ofNat 4 (j + 1)) := by decide

/-- `u` is where the sequencer goes after the first `j` steps from `s`: the delay owed by the last of them is the next
event. -/
def AfterSteps (s : State) (j : Nat) (u : State) : Prop :=
  ∃ w events, Progress s events w ∧
    events ++ owedEvents w.pend =
      (earlierSteps.take j).flatMap (fun k => initdStepEvents s.cfg s.bl k fun d => [delayEvent d]) ∧
    u = initdStep (BitVec.ofNat 4 (j + 1)) w

theorem leads_afterSteps {s : State} (hs : s.Ready) (hpend : s.pend = .none) (j : Nat) (hj : j ≤ 9) :
    Leads initdTick (7 * j) (initdStep 1 s) (AfterSteps s j) := by
  induction j with
  | zero => exact leads_here ⟨s, [], .refl hs, by simp [hpend], rfl⟩
  | succ j ih =>
    refine (ih (by omega)).bind (b := 7) ?_
    rintro _ ⟨w, events, hw, hevents, rfl⟩
    have hk : (BitVec.ofNat 4 (j + 1)).toNat = j + 1 := by simp; omega
    obtain ⟨row, hrow, -⟩ := initRom_mode (BitVec.ofNat 4 (j + 1)) (by omega) (by omega)
    refine (leads_initdStep hrow hw.ready).mono (Nat.le_refl 7) ?_
    rintro _ ⟨v, hv, hvpend, rfl⟩
    refine ⟨v, _, hw.trans hv, ?_, ?_⟩
    · rw [List.take_add_one, earlierSteps_getElem? j (by omega), List.flatMap_append, ← hevents, hvpend, hw.cfg_eq,
        hw.bl_eq, owedEvents_of_ne (initRom_cls_ne_none hrow)]
      simp [initdStepEvents, hrow]
    · rw [BitVec.ofNat_add (j + 1) 1]
      rfl

/-- The events of the session, up to its close. -/
def initdSessionEvents (c : Config) (bl : Bit) : List Event :=
  beginEvents c ++ earlierSteps.flatMap (fun k => initdStepEvents c bl k fun d => [delayEvent d]) ++
    initdStepEvents c bl 10 fun _ => []

theorem initdEvents_eq (c : Config) (bl : Bit) :
    initdEvents c bl = initdSessionEvents c bl ++ .closed :: [delayEvent .std, .responded .ok] := by
  simp [initdEvents, initdSessionEvents, earlierSteps, initdStepEvents, initRom]

theorem leads_initdSession {s : State} (hph : s.seq.ph = .openBus) (hpend : s.pend = .none) (hs : s.Ready) :
    Leads initdTick 72 s fun u => Progress s (initdSessionEvents s.cfg s.bl) u ∧ u.seq.ph = .close ∧ u.pend = .std := by
  refine (initdTick_commandRequest.leads_begin hph hs).bind (b := 70) ?_
  rintro _ ⟨u, hu, -, hupend, rfl⟩
  refine (leads_afterSteps hu.ready (hupend.trans hpend) 9 (Nat.le_refl 9)).bind (b := 7) ?_
  rintro _ ⟨v, events, hv, hevents, rfl⟩
  refine (leads_initdStep (k := 10) (row := ⟨0x0C, .nibble, .std⟩) rfl hv.ready).mono (Nat.le_refl 7) ?_
  rintro _ ⟨w, hw, hwpend, rfl⟩
  have hprogress := hu.trans (hv.trans hw)
  rw [← List.append_assoc events, hevents, hv.cfg_eq, hv.bl_eq, hu.cfg_eq, hu.bl_eq, ← List.append_assoc] at hprogress
  exact ⟨hprogress.reposition (q := { w.seq with ph := .close }) hprogress.ready.asked_eq hprogress.ready.abort_eq
    w.pend w.session, rfl, hwpend⟩

/-- INITD from its first primitive to its response (41_init R132). -/
theorem leads_initd {s : State} (hph : s.seq.ph = .openBus) (hpend : s.pend = .none) (hs : s.Ready) :
    Leads initdTick 74 s fun u => ∃ w,
      Progress s (initdSessionEvents s.cfg s.bl ++ [.closed, delayEvent .std]) w ∧ w.session = 0 ∧ w.pend = .none ∧
      u = initdDone w := by
  refine (leads_initdSession hph hpend hs).bind (b := 2) fun u ⟨hu, huph, hupend⟩ => ?_
  refine (initdTick_commandRequest.leads_finish huph hu.ready).mono (Nat.le_refl 2) ?_
  rintro _ ⟨w, hw, hsession, hwpend, rfl⟩
  rw [hupend] at hw
  exact ⟨w, hu.trans hw, hsession, hwpend, rfl⟩

theorem trace_initdStart_accept (r : Request) (s : State) : (initdStart (s.accept r)).trace = s.trace := rfl

/-- INITD from its acceptance to its response; an accepted request starts in good order, whatever came before it. -/
theorem exec_initd_allOk {s : State} (hidle : s.seq.ph = .idle) (hok : s.transport.allOk) (hlive : s.timer.live) :
    ∃ w, Progress (initdStart (s.accept (encode .initd)))
        (initdSessionEvents s.cfg s.bl ++ [.closed, delayEvent .std]) w ∧ w.session = 0 ∧ w.pend = .none ∧
      exec .initd s =
        .next { (initdDone w).log (.responded .ok) with seq := (initdDone w).seq.afterResponse } := by
  rw [exec_eq_serve, serve_idle hidle]
  generalize encode .initd = r
  have hready : (initdStart (s.accept r)).Ready := ⟨rfl, rfl, hok, hlive⟩
  have hbound : 74 < maxPrimitives := by simp [maxPrimitives]
  obtain ⟨_, ⟨w, hw, hsession, hpend, rfl⟩, hhalt⟩ := (leads_initd rfl rfl hready).run_eq hbound
  exact ⟨w, hw, hsession, hpend, hhalt _ (initdTick_commandRequest.resp (initdDone w) rfl)⟩

/-- What a completed INITD adds to the trace is `initdEvents`, the lengths of its waits apart. -/
theorem exec_initd_trace {s : State} (hidle : s.seq.ph = .idle) (hok : s.transport.allOk) (hlive : s.timer.live) :
    ∃ t events, exec .initd s = .next t ∧ t.trace = s.trace ++ events ∧
      events.map Event.untimed = initdEvents s.cfg s.bl := by
  obtain ⟨w, hw, -, -, hexec⟩ := exec_initd_allOk hidle hok hlive
  obtain ⟨-, events, htrace, -, -⟩ := exec_records hexec
  refine ⟨_, events, hexec, htrace, List.append_cancel_left (as := s.trace.map Event.untimed) ?_⟩
  have hlogged : s.trace ++ events = w.trace ++ [.responded .ok] := htrace.symm
  rw [← List.map_append, hlogged, List.map_append, hw.trace_eq, trace_initdStart_accept, initdEvents_eq]
  simp [Event.untimed]

/-! ### The counts

Every count of R138 is `List.countP` of some predicate that a wait's length does not change: each is summed over the
session's begin, the ten steps, four of them in byte mode, and the nine waits between them. -/

/-- The delays owed by the steps that another one follows (41_init R131). -/
def earlierDelays : List DelayClass := [.por1, .short, .short, .std, .std, .std, .clear, .std, .home]

theorem sum_over_steps {f : BitVec 4 → Nat} {a b : Nat}
    (hf : ∀ k : BitVec 4, 1 ≤ k.toNat → k.toNat ≤ 10 → f k = if k.toNat ≤ 4 then a else b) :
    ((earlierSteps ++ [10]).map f).sum = 4 * a + 6 * b := by
  have hrange : ∀ k ∈ earlierSteps ++ [10], 1 ≤ k.toNat ∧ k.toNat ≤ 10 := by decide
  rw [List.map_congr_left fun k hk => hf k (hrange k hk).1 (hrange k hk).2]
  simp [earlierSteps]
  omega

section
variable {p : Event → Bool} {c : Config} {bl : Bit} {a b : Nat}

theorem countP_map_untimed (hp : ∀ e, p e.untimed = p e) (l : List Event) :
    (l.map Event.untimed).countP p = l.countP p := by
  rw [List.countP_map]
  exact congrArg (fun q => l.countP q) (funext hp)

variable (hbyte : ∀ v, (commandEvents c bl v .byte 0).countP p = a)
  (hnibble : ∀ v, (commandEvents c bl v .nibble 0).countP p = b)
include hbyte hnibble

theorem countP_initdStepEvents (k : BitVec 4) (h1 : 1 ≤ k.toNat) (h10 : k.toNat ≤ 10) :
    (initdStepEvents c bl k fun _ => []).countP p = if k.toNat ≤ 4 then a else b := by
  obtain ⟨row, hrow, hmode⟩ := initRom_mode k h1 h10
  have hevents : (initdStepEvents c bl k fun _ => []) = commandEvents c bl row.value row.mode 0 := by
    simp [initdStepEvents, hrow]
  rw [hevents, hmode]
  split
  · exact hbyte row.value
  · exact hnibble row.value

theorem countP_initdSessionEvents :
    (initdSessionEvents c bl).countP p =
      (beginEvents c).countP p + (4 * a + 6 * b) + (earlierDelays.map delayEvent).countP p := by
  rw [← sum_over_steps (countP_initdStepEvents hbyte hnibble)]
  simp [initdSessionEvents, earlierSteps, earlierDelays, initdStepEvents, initRom, List.countP_cons]
  omega

end

theorem countP_beginEvents (p : Event → Bool) (c : Config) :
    (beginEvents c).countP p = (if p (.opened c.devAddr .ok) then 1 else 0) +
      (if c.regPrefix && p (.wrote c.gpioReg .pre .ok) then 1 else 0) := by
  cases hprefix : c.regPrefix <;> simp [beginEvents, hprefix, List.countP_cons, Nat.add_comm]

/-- Enable is asserted once in each half of a command (40_encoder_writer R104, R108). -/
theorem countEnable_commandEvents {c : Config} (hc : c.positions.Nodup) (bl : Bit) (v : Byte) (mode : Mode) (rs : Nat) :
    countEnable c (commandEvents c bl v mode rs) = if mode = .byte then 1 else 2 := by
  have hoff (half : Half) := getLsbD_signalEncode_cfgE hc v half rs bl
  cases mode <;>
    simp [countEnable, commandEvents, nibbleEvents, getLsbD_withEnable, getLsbD_withoutEnable, hoff]

/-! What an INITD adds but for its close: the session's events, the wait after it, the response. -/

section
variable (c : Config) (bl : Bit)

theorem countPort_initd : countPort (initdSessionEvents c bl ++ [delayEvent .std, .responded .ok]) = 48 := by
  rw [countPort, List.countP_append, countP_initdSessionEvents (a := 3) (b := 6) (fun _ => rfl) fun _ => rfl]
  simp [countP_beginEvents, earlierDelays, delayEvent]

theorem countWrites_initd : countWrites (initdSessionEvents c bl ++ [delayEvent .std, .responded .ok]) =
    48 + if c.regPrefix then 1 else 0 := by
  rw [countWrites, List.countP_append, countP_initdSessionEvents (a := 3) (b := 6) (fun _ => rfl) fun _ => rfl]
  simp [countP_beginEvents, earlierDelays, delayEvent, Nat.add_comm]

theorem countDelays_initdSessionEvents : countDelays (initdSessionEvents c bl) = 9 := by
  rw [countDelays, countP_initdSessionEvents (a := 0) (b := 0) (fun _ => rfl) fun _ => rfl]
  simp [countP_beginEvents, earlierDelays, delayEvent]

theorem countOpens_initd : countOpens (initdSessionEvents c bl ++ [delayEvent .std, .responded .ok]) = 1 := by
  rw [countOpens, List.countP_append, countP_initdSessionEvents (a := 0) (b := 0) (fun _ => rfl) fun _ => rfl]
  simp [countP_beginEvents, earlierDelays, delayEvent]

theorem countCloses_initd : countCloses (initdSessionEvents c bl ++ [delayEvent .std, .responded .ok]) = 0 := by
  rw [countCloses, List.countP_append, countP_initdSessionEvents (a := 0) (b := 0) (fun _ => rfl) fun _ => rfl]
  simp [countP_beginEvents, earlierDelays, delayEvent]

theorem countEnable_initd {c : Config} (hc : c.positions.Nodup) (bl : Bit) :
    countEnable c (initdSessionEvents c bl ++ [delayEvent .std, .responded .ok]) = 16 := by
  rw [countEnable, List.countP_append,
    countP_initdSessionEvents (a := 1) (b := 2) (fun v => countEnable_commandEvents hc bl v .byte 0)
      fun v => countEnable_commandEvents hc bl v .nibble 0]
  simp [countP_beginEvents, earlierDelays, delayEvent]

end

/-! The length of a wait is not counted. -/

section
variable (l : List Event)

theorem countPort_untimed : countPort (l.map Event.untimed) = countPort l :=
  countP_map_untimed (fun e => by cases e <;> rfl) l

theorem countWrites_untimed : countWrites (l.map Event.untimed) = countWrites l :=
  countP_map_untimed (fun e => by cases e <;> rfl) l

theorem countDelays_untimed : countDelays (l.map Event.untimed) = countDelays l :=
  countP_map_untimed (fun e => by cases e <;> rfl) l

theorem countOpens_untimed : countOpens (l.map Event.untimed) = countOpens l :=
  countP_map_untimed (fun e => by cases e <;> rfl) l

theorem countCloses_untimed : countCloses (l.map Event.untimed) = countCloses l :=
  countP_map_untimed (fun e => by cases e <;> rfl) l

theorem countEnable_untimed (c : Config) : countEnable c (l.map Event.untimed) = countEnable c l :=
  countP_map_untimed (fun e => by cases e <;> rfl) l

end

theorem Event.untimed_eq_closed {e : Event} (h : e.untimed = .closed) : e = .closed := by
  cases e <;> simp [Event.untimed] at h ⊢

/-- Settles O27: the trace of the run by `exec_initd_trace`, cut at its one close, and each step by `initRom_mode`. -/
theorem initdCounts : Obligations.InitdCounts := by
  refine ⟨fun s hidle hok hlive ⟨hc, _⟩ => ?_, fun c bl k ⟨hc, _⟩ h1 h10 => ⟨?_, ?_⟩⟩
  · obtain ⟨t, events, hexec, htrace, hevents⟩ := exec_initd_trace hidle hok hlive
    obtain ⟨before, rest, rfl, hbefore, hrest⟩ := List.map_eq_append_iff.mp (hevents.trans (initdEvents_eq s.cfg s.bl))
    obtain ⟨e, after, rfl, he, hafter⟩ := List.map_eq_cons_iff.mp hrest
    obtain rfl := Event.untimed_eq_closed he
    have hall : (before ++ after).map Event.untimed =
        initdSessionEvents s.cfg s.bl ++ [delayEvent .std, .responded .ok] := by rw [List.map_append, hbefore, hafter]
    refine ⟨t, before, after, hexec, by rw [htrace, List.append_assoc], hevents, ?_, ?_, ?_, ?_, ?_, ?_, ?_⟩
    · rw [← countPort_untimed, hall, countPort_initd]
    · rw [← countWrites_untimed, hall, countWrites_initd]
    · rw [← countDelays_untimed, hbefore, countDelays_initdSessionEvents]
    · rw [← countDelays_untimed, hafter]
      rfl
    · rw [← countOpens_untimed, hall, countOpens_initd]
    · rw [← countCloses_untimed, hall, countCloses_initd]
    · rw [← countEnable_untimed, hall, countEnable_initd hc]
  · exact countP_initdStepEvents (fun _ => rfl) (fun _ => rfl) k h1 h10
  · exact countP_initdStepEvents (fun v => countEnable_commandEvents hc bl v .byte 0)
      (fun v => countEnable_commandEvents hc bl v .nibble 0) k h1 h10

end Sys2Proof.Machine
end

section
/-! PROOFS. The cursor-set command and the character after it (spec 42_character R160, R161): what PUTC and PUTS issue
first, and which positions send one and the same command. -/

namespace Sys2Proof.Machine

open Sys2Proof

/-! ### The value of the command -/

/-- The command sets bit 7 and no other, so it is no other byte where `POS` has that bit. -/
theorem cursorSet_eq_self {pos : Byte} (h : 0x80 ≤ pos.toNat) : cursorSet pos = pos := by
  have hmsb : pos.getLsbD 7 = true := by
    rw [← BitVec.msb_eq_getLsbD_last, BitVec.msb_eq_decide]
    exact decide_eq_true h
  have hbit : (0x80 : Byte) = BitVec.twoPow 8 7 := rfl
  ext k hk
  rw [cursorSet, hbit, BitVec.getElem_or, BitVec.getElem_twoPow]
  by_cases hk7 : k = 7
  · subst hk7
    simpa using hmsb.symm
  · simp [hk7]

/-- A position and the one with bit 7 set besides send the same command. -/
@[simp] theorem cursorSet_cursorSet (pos : Byte) : cursorSet (cursorSet pos) = cursorSet pos := by
  rw [cursorSet, cursorSet, ← BitVec.or_assoc, BitVec.or_self]

/-! ### What the requests issue -/

section
variable {s : State}

theorem putcFirst_of_ne_sentinel (h : s.posOf ≠ posSentinel) :
    putcFirst s = s.issueCommand (cursorSet s.posOf) 0 := if_neg h

theorem putsFirst_of_ne_sentinel (h : s.posOf ≠ posSentinel) :
    putsFirst s = s.issueCommand (cursorSet s.posOf) 0 := if_neg h

/-- After the cursor-set, which is Command, PUTC has its character to write. -/
theorem putcNext_of_command (h : s.seq.rs = 0) : putcNext s = s.issueCommand s.valOf 1 := if_pos h

end

/-- Settles O29: PUTC and PUTS from their branch off the sentinel; the two collisions are the positions 0x00 and 0x40
with bit 7 set. -/
theorem cursorSetValue : Obligations.CursorSetValue := by
  refine ⟨fun s hpos => ⟨putcFirst_of_ne_sentinel hpos, putsFirst_of_ne_sentinel hpos⟩,
    fun s hrs => putcNext_of_command hrs, fun pos hpos => cursorSet_eq_self hpos, ?_, ?_⟩
  · exact cursorSet_cursorSet 0x00
  · exact cursorSet_cursorSet 0x40

end Sys2Proof.Machine
end

section
/-! PROOFS. The value SETBL gives `BL` (spec 43_backlight_clear R190 to R192): it is there before the first primitive, and
no step restores it while neither the request in the latches nor one in the host's queue sets it again. -/

namespace Sys2Proof.Machine

open Sys2Proof

/-! ### The operation in the latches -/

theorem fieldOp_encode (i : Instr) : fieldOp (encode i).w0 = opcode i := by
  cases i <;> exact fieldOp_packWord _ _ _ _

/-- `OP` alone tells which request a legal word is (30_encoding R79). -/
theorem opcode_of_decode {w0 w1 : Word} {i : Instr} (h : decode w0 w1 = .ok i) : opcode i = fieldOp w0 := by
  unfold decode at h
  split at h
  · cases h
  split at h
  case h_8 => cases h
  all_goals
    next hop =>
    split at h
    · cases h
      exact (BitVec.eq_of_toNat_eq hop).symm
    · cases h

theorem opcode_ne_opcode_blink {i : Instr} (hblink : ∀ n, i ≠ .blink n) (n : Byte) : opcode i ≠ opcode (.blink n) := by
  cases i with
  | blink count => exact absurd rfl (hblink count)
  | initx | initd | putc | puts | setbl | clear => simp [opcode]

theorem setsBacklight_eq_false_iff (i : Instr) :
    setsBacklight i = false ↔ (∀ on, i ≠ .setbl on) ∧ ∀ n, i ≠ .blink n := by
  cases i <;> simp [setsBacklight]

theorem exec_opOf {i : Instr} {s t : State} (hidle : s.seq.ph = .idle) (h : exec i s = .next t) : t.opOf = opcode i :=
  calc t.opOf = fieldOp t.latched.w0 := rfl
    _ = fieldOp (encode i).w0 := by rw [exec_latched hidle h]; rfl
    _ = opcode i := fieldOp_encode i

/-! ### The host's queue, which a request in progress leaves as it is -/

theorem Alike.queue_eq {r : Request} {q : List Request} {s t : State} (h : Alike r q s t) : t.host.queue = q := by
  rw [h.eq_withQueue]
  rfl

theorem run_queue {tick : State → Move} (htick : TickIgnoresHost tick) {n : Nat} {s t : State}
    (h : run tick n s = .next t) : t.host.queue = s.host.queue := by
  obtain ⟨u, hrun, halike⟩ := run_alike htick n (alike_self s) h
  obtain rfl : t = u := Host.Outcome.next.inj (h.symm.trans hrun)
  exact halike.queue_eq

theorem exec_queue {i : Instr} {s t : State} (hidle : s.seq.ph = .idle) (h : exec i s = .next t) :
    t.host.queue = s.host.queue := by
  rw [exec_eq_serve, serve_idle hidle] at h
  calc t.host.queue = (startOf i (s.accept (encode i))).host.queue := run_queue (tickOf_ignoresHost i) h
    _ = (s.accept (encode i)).host.queue := (startOf_ignoresHost i (alike_self _)).queue_eq
    _ = s.host.queue := rfl

/-! ### A busy block goes on -/

theorem TickIgnoresHost.keeps_latched {tick : State → Move} (h : TickIgnoresHost tick) (s : State) :
    (tick s).All fun t => t.latched = s.latched := by
  have hmove := h (alike_self s)
  cases htick : tick s with
  | go t | halt t =>
    rw [htick] at hmove
    cases hmove with
    | _ halike => exact halike.latched_eq
  | refused r => exact Move.all_refused _ r

/-- The operation in the latches is not BLINK, the one that writes `BL` while it runs (43_backlight_clear R193). -/
def State.NoBlink (s : State) : Prop := ∀ n, s.opOf ≠ opcode (.blink n)

theorem State.NoBlink.of_latched_eq {s t : State} (hs : s.NoBlink) (h : t.latched = s.latched) : t.NoBlink := by
  have hreq0 : t.req0 = s.req0 := congrArg Request.w0 h
  have hop : t.opOf = s.opOf := by rw [State.opOf, hreq0, State.opOf]
  exact fun n => hop ▸ hs n

theorem seqTick_carriesBacklight {s : State} (hs : s.NoBlink) : (seqTick s).All (CarriesBacklight s) := by
  unfold seqTick
  rcases hdecode : decode s.req0 s.req1 with e | i
  · exact Move.all_refused _ _
  · have hblink (n : Byte) : i ≠ .blink n := by
      rintro rfl
      exact hs n (opcode_of_decode hdecode).symm
    exact tick_carriesBacklight (tickOf_records i) (tickOf_keepsBacklight hblink) s

theorem proceed_carriesBacklight {s t : State} (hs : s.NoBlink) (h : proceed s = .next t) : CarriesBacklight s t := by
  have hmove (u : State) (hu : CarriesBacklight s u ∧ u.NoBlink) :
      (seqTick u).All fun v => CarriesBacklight s v ∧ v.NoBlink := by
    have hcarries := seqTick_carriesBacklight hu.2
    have hlatched := seqTick_ignoresHost.keeps_latched u
    cases htick : seqTick u with
    | go v | halt v =>
      rw [htick] at hcarries hlatched
      exact ⟨hu.1.trans hcarries, hu.2.of_latched_eq hlatched⟩
    | refused r => exact Move.all_refused _ r
  refine (run_keeps (fun u => CarriesBacklight s u ∧ u.NoBlink) (fun u v hu hv => ?_) (fun u v hu hv => ?_)
    maxPrimitives s t ⟨.refl s, hs⟩ h).1
  · simpa [hv] using hmove u hu
  · simpa [hv] using hmove u hu

/-! ### Any number of steps -/

/-- No request in the host's queue sets the backlight, and a busy block is not in a BLINK. -/
structure BacklightSettled (s : State) : Prop where
  queued : ∀ r ∈ s.host.queue, ∀ j, decode r.w0 r.w1 = .ok j → setsBacklight j = false
  inProgress : s.seq.ph ≠ .idle → s.NoBlink

theorem step_carriesBacklight {s t : State} (hs : BacklightSettled s) (h : step s = .next t) :
    CarriesBacklight s t ∧ BacklightSettled t := by
  rcases step_next_cases h with ⟨-, -, rfl⟩ | ⟨r, q, hidle, hqueue, hserved⟩ | ⟨hbusy, -, hrun⟩
  · exact ⟨.refl t, hs⟩
  · have hrest (r' : Request) (hr' : r' ∈ q) := hs.queued r' (hqueue ▸ List.mem_cons_of_mem r hr')
    rcases hserved with ⟨e, -, rfl⟩ | ⟨i, hdecode, hexec⟩
    · exact ⟨⟨rfl, extends_of_event (.responded .illegalRequest) rfl rfl rfl⟩, hrest, absurd hidle⟩
    · have hi : setsBacklight i = false := hs.queued r (hqueue ▸ List.mem_cons_self) i hdecode
      obtain ⟨hsetbl, hblink⟩ := (setsBacklight_eq_false_iff i).mp hi
      have hidle' : (s.withQueue q).seq.ph = .idle := hidle
      have htaken : SameRecord s (s.withQueue q) := ⟨rfl, rfl, rfl⟩
      have hcarries : CarriesBacklight s (s.withQueue q) := ⟨rfl, htaken.extends _⟩
      refine ⟨hcarries.trans (exec_carriesBacklight hsetbl hblink hexec), ?_, fun _ n => ?_⟩
      · rwa [exec_queue hidle' hexec]
      · rw [exec_opOf hidle' hexec]
        exact opcode_ne_opcode_blink hblink n
  · have hblink := hs.inProgress hbusy
    refine ⟨proceed_carriesBacklight hblink hrun, ?_, fun _ => ?_⟩
    · rw [run_queue seqTick_ignoresHost hrun]
      exact hs.queued
    · exact hblink.of_latched_eq (run_latched seqTick_ignoresHost hrun)

theorem stepsTo_carriesBacklight {n : Nat} {s u : State} (hs : BacklightSettled s) (h : stepsTo n s = some u) :
    CarriesBacklight s u := by
  induction n generalizing s with
  | zero =>
    cases h
    exact .refl u
  | succ n ih =>
    unfold stepsTo at h
    split at h
    case h_1 t hstep =>
      obtain ⟨hcarries, ht⟩ := step_carriesBacklight hs hstep
      exact hcarries.trans (ih ht h)
    all_goals cases h

/-! ### SETBL -/

/-- R190: `BL` has the new value before the session opens, so all that a SETBL does is done under it. -/
theorem exec_setbl_carriesBacklight {on : Bit} {s t : State} (hidle : s.seq.ph = .idle)
    (h : exec (.setbl on) s = .next t) : CarriesBacklight { s with bl := on } t := by
  rw [exec_eq_serve, serve_idle hidle] at h
  have hon : (s.accept (encode (.setbl on))).onOf = on := fieldOn_packWord_bit 5 0 0 on
  have haccept : SameRecord { s with bl := on } (s.accept (encode (.setbl on))) :=
    ⟨State.accept_cfg _ s, State.accept_trace _ s, State.accept_pins _ s⟩
  have hstart : CarriesBacklight { s with bl := on } (startOf (.setbl on) (s.accept (encode (.setbl on)))) :=
    ⟨hon, (quiet_startOf (.setbl on)).extends (haccept.extends _)⟩
  exact hstart.trans (run_carriesBacklight (tickOf_records (.setbl on)) setblTick_keepsBacklight h)

theorem exec_setbl_settled {on : Bit} {s t : State} (hidle : s.seq.ph = .idle) (h : exec (.setbl on) s = .next t)
    (hqueue : ∀ r ∈ s.host.queue, ∀ j, decode r.w0 r.w1 = .ok j → setsBacklight j = false) : BacklightSettled t where
  queued := by rwa [exec_queue hidle h]
  inProgress _ n := by
    rw [exec_opOf hidle h]
    exact opcode_ne_opcode_blink (i := .setbl on) (fun _ => nofun) n

theorem CarriesBacklight.port_carries {s t : State} (h : CarriesBacklight s t) (hwf : s.cfg.wf) {events : List Event}
    (hevents : t.trace = s.trace ++ events) (b : Byte) (r : Answer) (hmem : Event.wrote b .port r ∈ events) :
    b.getLsbD s.cfg.cfgBl.toNat = s.bl.getLsbD 0 := by
  obtain ⟨-, -, es, htrace, -, hes⟩ := h
  obtain rfl : es = events := List.append_cancel_left (htrace.symm.trans hevents)
  exact (hes _ hmem).port_carriesBacklight hwf.1

/-- Settles O41: the SETBL, every later step and the request after it carry the `BL` the SETBL was accepted with. -/
theorem backlightNeverRolledBack : Obligations.BacklightNeverRolledBack := by
  intro s t on hidle h
  have hsetbl := exec_setbl_carriesBacklight hidle h
  refine ⟨hsetbl.bl_eq, fun hwf events => hsetbl.port_carries hwf, fun n u hu hqueue => ?_, ?_⟩
  · have hlater := hsetbl.trans (stepsTo_carriesBacklight (exec_setbl_settled hidle h hqueue) hu)
    exact ⟨hlater.bl_eq, fun hwf events => hlater.port_carries hwf⟩
  · intro hwf j u events hj hj' hexec hevents b r hmem
    have hcfg : t.cfg = s.cfg := hsetbl.extends_lawful.cfg_eq
    have hport := (exec_carriesBacklight hj hj' hexec).port_carries (hcfg ▸ hwf) hevents b r hmem
    rwa [hcfg, hsetbl.bl_eq] at hport

end Sys2Proof.Machine
end

section
/-! PROOFS. `FAULT`, the buffer memory and the host's changes of it, through a step (spec 10_state R32, R35; 20_memory
R53, R64): a PUTS alone touches them, and only where it faults and where the host's changes come before a read. -/

namespace Sys2Proof.Machine

open Sys2Proof

/-! ### The updates and the primitives that stay within a relation -/

/-- `t` has the `FAULT` of `s`, its buffer memory, and the changes of it that the host has yet to make. -/
structure SameBuffer (s t : State) : Prop where
  fault_eq : t.fault = s.fault
  mem_eq : t.mem = s.mem
  edits_eq : t.host.edits = s.host.edits

theorem SameBuffer.trans {s t u : State} (hst : SameBuffer s t) (htu : SameBuffer t u) : SameBuffer s u :=
  ⟨htu.fault_eq.trans hst.fault_eq, htu.mem_eq.trans hst.mem_eq, htu.edits_eq.trans hst.edits_eq⟩

/-- A relation from a state to a later one that lets the block change everything but what `SameBuffer` compares. -/
structure BufferFrame (R : State → State → Prop) : Prop where
  of_same {s t : State} : SameBuffer s t → R s t
  trans {s t u : State} : R s t → R t u → R s u

theorem BufferFrame.sameBuffer : BufferFrame SameBuffer := ⟨id, SameBuffer.trans⟩

theorem BufferFrame.after {R : State → State → Prop} (hR : BufferFrame R) {s t u : State} (htu : R t u)
    (hst : SameBuffer s t) : R s u :=
  hR.trans (hR.of_same hst) htu

/-- The update `f` goes from a state to a related one. -/
def UpdateWithin (R : State → State → Prop) (f : State → State) : Prop := ∀ s, R s (f s)

/-- Whatever the primitive `tick` leads to is related to where it started. -/
def TickWithin (R : State → State → Prop) (tick : State → Move) : Prop := ∀ s, (tick s).All (R s)

theorem UpdateWithin.ite {R : State → State → Prop} {c : State → Prop} {_ : DecidablePred c} {f g : State → State}
    (hf : UpdateWithin R f) (hg : UpdateWithin R g) : UpdateWithin R fun s => if c s then f s else g s := fun s => by
  dsimp only
  split
  · exact hf s
  · exact hg s

theorem TickWithin.of_sameBuffer {R : State → State → Prop} (hR : BufferFrame R) {tick : State → Move}
    (h : TickWithin SameBuffer tick) : TickWithin R tick := fun s => (h s).mono fun _ => hR.of_same

theorem sameBuffer_enterSession : UpdateWithin SameBuffer State.enterSession := fun _ => ⟨rfl, rfl, rfl⟩

theorem sameBuffer_countWrite : UpdateWithin SameBuffer State.countWrite := fun _ => ⟨rfl, rfl, rfl⟩

theorem sameBuffer_called {onCall : State → State} (h : UpdateWithin SameBuffer onCall) :
    UpdateWithin SameBuffer (State.called onCall) :=
  .ite (fun _ => ⟨rfl, rfl, rfl⟩) fun s => (h s).trans ⟨rfl, rfl, rfl⟩

section
variable {R : State → State → Prop} (hR : BufferFrame R)
include hR

theorem UpdateWithin.setPend {f : State → State} (h : UpdateWithin R f) (cls : DelayClass) :
    UpdateWithin R fun s => f { s with pend := cls } := fun _ => hR.after (h _) ⟨rfl, rfl, rfl⟩

theorem busOpen_within {next : State → State} (h : UpdateWithin R next) : TickWithin R (busOpen next) := fun s => by
  have hcalled : SameBuffer s (s.called State.enterSession) := sameBuffer_called sameBuffer_enterSession s
  rcases busOpen_cases next s with ⟨-, hm⟩ | ⟨t, -, hm⟩ | ⟨t, -, hm⟩ <;> rw [hm]
  · exact hR.of_same hcalled
  · exact hR.after (h _) (hcalled.trans ⟨rfl, rfl, rfl⟩)
  · exact hR.of_same (hcalled.trans ⟨rfl, rfl, rfl⟩)

theorem put_within (b : Byte) (kind : WriteKind) {next : State → State} (h : UpdateWithin R next) :
    TickWithin R (put b kind next) := fun s => by
  have hcalled : SameBuffer s (s.called State.countWrite) := sameBuffer_called sameBuffer_countWrite s
  rcases put_cases b kind next s with ⟨-, hm⟩ | ⟨t, -, hm⟩ | ⟨t, -, hm⟩ <;> rw [hm]
  · exact hR.of_same hcalled
  · exact hR.after (h _) (hcalled.trans ⟨rfl, rfl, rfl⟩)
  · exact hR.of_same (hcalled.trans ⟨rfl, rfl, rfl⟩)

theorem waitFor_within (c : DelayClass) {next : State → State} (h : UpdateWithin R next) :
    TickWithin R (waitFor c next) := fun s => by
  rcases waitFor_cases c next s with ⟨-, hm⟩ | ⟨late, t, -, hm⟩ <;> rw [hm]
  · exact hR.of_same ⟨rfl, rfl, rfl⟩
  · exact hR.after (h _) ⟨rfl, rfl, rfl⟩

theorem memRead_within (addr : Word) {onByte : Option Byte → State → Move} (hedits : UpdateWithin R State.hostEdits)
    (h : ∀ v, TickWithin R (onByte v)) : TickWithin R (memRead addr onByte) := fun s =>
  (h _ _).mono fun _ ht => hR.trans (hedits s) (hR.after ht ⟨rfl, rfl, rfl⟩)

/-! ### The phases -/

theorem respPhase_within : TickWithin R respPhase := fun _ => hR.of_same ⟨rfl, rfl, rfl⟩

theorem openPhase_within {first : State → State} (h : UpdateWithin R first) : TickWithin R (openPhase first) :=
  busOpen_within hR (.ite (fun _ => hR.of_same ⟨rfl, rfl, rfl⟩) h)

theorem prePhase_within {first : State → State} (h : UpdateWithin R first) : TickWithin R (prePhase first) :=
  fun s => put_within hR s.cfg.gpioReg .pre h s

theorem closePhase_within {after : State → State} (h : UpdateWithin R after) : TickWithin R (closePhase after) :=
  fun s => by
  rw [closePhase, Move.all_go]
  split
  · exact hR.of_same ⟨rfl, rfl, rfl⟩
  · exact hR.after (h s.endSession) ⟨rfl, rfl, rfl⟩

theorem waitInPhase_within : TickWithin R waitInPhase := fun s => by
  have hstart : UpdateWithin R State.startCommand := fun _ => hR.of_same ⟨rfl, rfl, rfl⟩
  unfold waitInPhase
  split
  · exact hstart s
  · exact waitFor_within hR s.pend (hstart.setPend hR .none) s

theorem afterByte_within (mode : Mode) {atEnd : State → State} (h : UpdateWithin R atEnd) :
    UpdateWithin R (State.afterByte mode atEnd) := fun s => by
  rw [State.afterByte_eq]
  split
  · exact hR.after (h _) ⟨rfl, rfl, rfl⟩
  · exact hR.of_same ⟨rfl, rfl, rfl⟩

theorem writePhase_within (mode : Mode) (cls : DelayClass) {atEnd : State → State} (h : UpdateWithin R atEnd) :
    TickWithin R (writePhase mode cls atEnd) := fun s =>
  put_within hR s.writerByteOf .port (afterByte_within hR mode (h.setPend hR cls)) s

theorem finishCommands_within {done : State → State} (h : UpdateWithin R done) :
    UpdateWithin R (State.finishCommands done) :=
  .ite h fun _ => hR.of_same ⟨rfl, rfl, rfl⟩

theorem waitTailPhase_within {done : State → State} (h : UpdateWithin R done) : TickWithin R (waitTailPhase done) :=
  fun s => by
  unfold waitTailPhase
  split
  · exact h s
  · exact waitFor_within hR s.pend (h.setPend hR .none) s

end

/-! ### The requests that leave the buffer alone, phase by phase -/

theorem sameBuffer_goto (p : Phase) : UpdateWithin SameBuffer fun s => s.goto p := fun _ => ⟨rfl, rfl, rfl⟩

theorem sameBuffer_respondOk : UpdateWithin SameBuffer State.respondOk := fun _ => ⟨rfl, rfl, rfl⟩

theorem sameBuffer_issueCommand (v : State → Byte) (rs : Bit) :
    UpdateWithin SameBuffer fun s => s.issueCommand (v s) rs := fun _ => ⟨rfl, rfl, rfl⟩

theorem sameBuffer_initxLoop : UpdateWithin SameBuffer initxLoop := .ite (sameBuffer_goto .raw) (sameBuffer_goto .close)

theorem sameBuffer_initxNext : UpdateWithin SameBuffer initxNext := fun _ =>
  BufferFrame.sameBuffer.after (sameBuffer_initxLoop _) ⟨rfl, rfl, rfl⟩

theorem sameBuffer_initdStep (k : BitVec 4) : UpdateWithin SameBuffer (initdStep k) := fun s => by
  unfold initdStep
  split <;> exact ⟨rfl, rfl, rfl⟩

theorem sameBuffer_initdNext : UpdateWithin SameBuffer initdNext := fun s => sameBuffer_initdStep (s.seq.step + 1) s

theorem sameBuffer_initdDone : UpdateWithin SameBuffer initdDone := fun _ => ⟨rfl, rfl, rfl⟩

theorem sameBuffer_putcChar : UpdateWithin SameBuffer putcChar := sameBuffer_issueCommand State.valOf 1

theorem sameBuffer_putcFirst : UpdateWithin SameBuffer putcFirst :=
  .ite sameBuffer_putcChar (sameBuffer_issueCommand (fun s => cursorSet s.posOf) 0)

theorem sameBuffer_putcNext : UpdateWithin SameBuffer putcNext := .ite sameBuffer_putcChar (sameBuffer_goto .close)

theorem sameBuffer_blinkLoop : UpdateWithin SameBuffer blinkLoop := .ite sameBuffer_respondOk fun _ => ⟨rfl, rfl, rfl⟩

theorem sameBuffer_blinkNext : UpdateWithin SameBuffer blinkNext :=
  .ite (fun _ => ⟨rfl, rfl, rfl⟩) fun _ => BufferFrame.sameBuffer.after (sameBuffer_blinkLoop _) ⟨rfl, rfl, rfl⟩

theorem initxTick_sameBuffer : TickWithin SameBuffer initxTick := fun s => by
  unfold initxTick
  cases s.seq.ph
  case openBus => exact openPhase_within .sameBuffer sameBuffer_initxLoop s
  case preWrite => exact prePhase_within .sameBuffer sameBuffer_initxLoop s
  case raw =>
    rcases s.cfg.expanderInitSeq[s.seq.idx.toNat]? with _ | b
    · exact Move.all_refused _ _
    · exact put_within .sameBuffer b .raw sameBuffer_initxNext s
  case close => exact closePhase_within .sameBuffer sameBuffer_respondOk s
  case resp => exact respPhase_within .sameBuffer s
  all_goals exact Move.all_refused _ _

theorem initdTick_sameBuffer : TickWithin SameBuffer initdTick := fun s => by
  unfold initdTick
  cases s.seq.ph
  case openBus => exact openPhase_within .sameBuffer (sameBuffer_initdStep 1) s
  case preWrite => exact prePhase_within .sameBuffer (sameBuffer_initdStep 1) s
  case write =>
    rcases initRom s.seq.step with _ | row
    · exact Move.all_refused _ _
    · exact writePhase_within .sameBuffer row.mode row.cls sameBuffer_initdNext s
  case waitIn => exact waitInPhase_within .sameBuffer s
  case close => exact closePhase_within .sameBuffer (finishCommands_within .sameBuffer sameBuffer_initdDone) s
  case waitTail => exact waitTailPhase_within .sameBuffer sameBuffer_initdDone s
  case resp => exact respPhase_within .sameBuffer s
  all_goals exact Move.all_refused _ _

theorem putcTick_sameBuffer : TickWithin SameBuffer putcTick := fun s => by
  unfold putcTick
  cases s.seq.ph
  case openBus => exact openPhase_within .sameBuffer sameBuffer_putcFirst s
  case preWrite => exact prePhase_within .sameBuffer sameBuffer_putcFirst s
  case write => exact writePhase_within .sameBuffer .nibble .std sameBuffer_putcNext s
  case waitIn => exact waitInPhase_within .sameBuffer s
  case close => exact closePhase_within .sameBuffer (finishCommands_within .sameBuffer sameBuffer_respondOk) s
  case waitTail => exact waitTailPhase_within .sameBuffer sameBuffer_respondOk s
  case resp => exact respPhase_within .sameBuffer s
  all_goals exact Move.all_refused _ _

theorem setblTick_sameBuffer : TickWithin SameBuffer setblTick := fun s => by
  unfold setblTick
  cases s.seq.ph
  case openBus => exact openPhase_within .sameBuffer (sameBuffer_goto .blWrite) s
  case preWrite => exact prePhase_within .sameBuffer (sameBuffer_goto .blWrite) s
  case blWrite => exact put_within .sameBuffer (backlightByte s.cfg s.bl) .port (sameBuffer_goto .close) s
  case close => exact closePhase_within .sameBuffer sameBuffer_respondOk s
  case resp => exact respPhase_within .sameBuffer s
  all_goals exact Move.all_refused _ _

theorem blinkTick_sameBuffer : TickWithin SameBuffer blinkTick := fun s => by
  unfold blinkTick
  cases s.seq.ph
  case openBus => exact openPhase_within .sameBuffer (sameBuffer_goto .blWrite) s
  case preWrite => exact prePhase_within .sameBuffer (sameBuffer_goto .blWrite) s
  case blWrite => exact put_within .sameBuffer (backlightByte s.cfg s.bl) .port (sameBuffer_goto .close) s
  case close => exact closePhase_within .sameBuffer (sameBuffer_goto .blWait) s
  case blWait => exact waitFor_within .sameBuffer .blink sameBuffer_blinkNext s
  case resp => exact respPhase_within .sameBuffer s
  all_goals exact Move.all_refused _ _

theorem clearTick_sameBuffer : TickWithin SameBuffer clearTick := fun s => by
  have hfirst : UpdateWithin SameBuffer clearFirst := sameBuffer_issueCommand (fun _ => 0x01) 0
  unfold clearTick
  cases s.seq.ph
  case openBus => exact openPhase_within .sameBuffer hfirst s
  case preWrite => exact prePhase_within .sameBuffer hfirst s
  case write => exact writePhase_within .sameBuffer .nibble .clear (sameBuffer_goto .close) s
  case waitIn => exact waitInPhase_within .sameBuffer s
  case close => exact closePhase_within .sameBuffer (finishCommands_within .sameBuffer sameBuffer_respondOk) s
  case waitTail => exact waitTailPhase_within .sameBuffer sameBuffer_respondOk s
  case resp => exact respPhase_within .sameBuffer s
  all_goals exact Move.all_refused _ _

/-- 10_state R35: no request but PUTS reads the buffer memory, and none but PUTS faults. -/
theorem tickOf_sameBuffer {i : Instr} (hputs : ∀ buf pos len, i ≠ .puts buf pos len) :
    TickWithin SameBuffer (tickOf i) := by
  cases i with
  | initx => exact initxTick_sameBuffer
  | initd => exact initdTick_sameBuffer
  | putc val pos => exact putcTick_sameBuffer
  | puts buf pos len => exact absurd rfl (hputs buf pos len)
  | setbl on => exact setblTick_sameBuffer
  | blink count => exact blinkTick_sameBuffer
  | clear => exact clearTick_sameBuffer

theorem sameBuffer_startOf (i : Instr) : UpdateWithin SameBuffer (startOf i) := by
  cases i with
  | blink count => exact fun _ => BufferFrame.sameBuffer.after (sameBuffer_blinkLoop _) ⟨rfl, rfl, rfl⟩
  | initx | initd | putc | puts | setbl | clear => exact fun _ => ⟨rfl, rfl, rfl⟩

/-! ### PUTS, the run and the step -/

theorem sameBuffer_putsLoop : UpdateWithin SameBuffer putsLoop := .ite (sameBuffer_goto .close) (sameBuffer_goto .read)

theorem sameBuffer_putsFirst : UpdateWithin SameBuffer putsFirst :=
  .ite sameBuffer_putsLoop (sameBuffer_issueCommand (fun s => cursorSet s.posOf) 0)

section
variable {R : State → State → Prop} (hR : BufferFrame R) (hfault : UpdateWithin R State.raiseBufFault)
  (hedits : UpdateWithin R State.hostEdits)

include hR in
theorem run_within {tick : State → Move} (htick : TickWithin R tick) {n : Nat} {s t : State}
    (h : run tick n s = .next t) : R s t := by
  refine run_keeps (R s) (fun u v hu hv => hR.trans hu ?_) (fun u v hu hv => hR.trans hu ?_) n s t
    (hR.of_same ⟨rfl, rfl, rfl⟩) h
  · simpa [hv] using htick u
  · simpa [hv] using htick u

include hR in
theorem exec_within {i : Instr} (htick : TickWithin R (tickOf i)) {s t : State} (hidle : s.seq.ph = .idle)
    (h : exec i s = .next t) : R s t := by
  rw [exec_eq_serve, serve_idle hidle] at h
  have hstart : SameBuffer s (startOf i (s.accept (encode i))) :=
    BufferFrame.sameBuffer.after (sameBuffer_startOf i (s.accept (encode i))) ⟨rfl, rfl, rfl⟩
  exact hR.trans (hR.of_same hstart) (run_within hR htick h)

include hR hfault in
theorem putsByte_within (v : Option Byte) : TickWithin R (putsByte v) := fun s => by
  cases v with
  | none => exact hfault s
  | some b =>
    unfold putsByte
    dsimp only
    split
    · exact hR.of_same (sameBuffer_goto .close s)
    · exact hR.of_same (sameBuffer_issueCommand (fun _ => b) 1 s)

include hR hfault in
theorem putsNext_within : UpdateWithin R putsNext :=
  .ite (fun s => hR.of_same (sameBuffer_putsLoop s)) <| .ite hfault fun _ =>
    hR.of_same (BufferFrame.sameBuffer.after (sameBuffer_putsLoop _) ⟨rfl, rfl, rfl⟩)

include hR hfault hedits

theorem putsTick_within : TickWithin R putsTick := fun s => by
  have hfirst : UpdateWithin R putsFirst := fun u => hR.of_same (sameBuffer_putsFirst u)
  have hdone : UpdateWithin R State.respondOk := fun u => hR.of_same (sameBuffer_respondOk u)
  unfold putsTick
  cases s.seq.ph
  case openBus => exact openPhase_within hR hfirst s
  case preWrite => exact prePhase_within hR hfirst s
  case write => exact writePhase_within hR .nibble .std (putsNext_within hR hfault) s
  case waitIn => exact waitInPhase_within hR s
  case read =>
    exact memRead_within hR (bufferAddr s.bufOf s.seq.idx) hedits (putsByte_within hR hfault) s
  case close => exact closePhase_within hR (finishCommands_within hR hdone) s
  case waitTail => exact waitTailPhase_within hR hdone s
  case resp => exact respPhase_within hR s
  case faulted => exact hR.of_same ⟨rfl, rfl, rfl⟩
  all_goals exact Move.all_refused _ _

theorem tickOf_within (i : Instr) : TickWithin R (tickOf i) := by
  by_cases hputs : ∃ buf pos len, i = .puts buf pos len
  · obtain ⟨buf, pos, len, rfl⟩ := hputs
    exact putsTick_within hR hfault hedits
  · exact (tickOf_sameBuffer fun buf pos len hi => hputs ⟨buf, pos, len, hi⟩).of_sameBuffer hR

theorem seqTick_within : TickWithin R seqTick := fun s => by
  unfold seqTick
  rcases decode s.req0 s.req1 with e | i
  · exact Move.all_refused _ _
  · exact tickOf_within hR hfault hedits i s

/-- Beyond `SameBuffer` a step has but two effects, both in a PUTS: the buffer fault, and the host's changes before a
read. -/
theorem step_within {s t : State} (h : step s = .next t) : R s t := by
  rcases step_next_cases h with ⟨-, -, rfl⟩ | ⟨r, q, hidle, -, ⟨e, -, rfl⟩ | ⟨i, -, hexec⟩⟩ | ⟨-, -, hrun⟩
  · exact hR.of_same ⟨rfl, rfl, rfl⟩
  · exact hR.of_same ⟨rfl, rfl, rfl⟩
  · have htaken : SameBuffer s (s.withQueue q) := ⟨rfl, rfl, rfl⟩
    exact hR.trans (hR.of_same htaken) (exec_within hR (tickOf_within hR hfault hedits i) hidle hexec)
  · exact run_within hR (seqTick_within hR hfault hedits) hrun

end

end Sys2Proof.Machine
end

section
/-! PROOFS. The buffer fault (spec 60_exceptions R226): the read that raises it, the block that is FAULTED, and `FAULT`,
which no step clears. -/

namespace Sys2Proof.Machine

open Sys2Proof

/-! ### The read that answers UNMAPPED -/

/-- `BUF` of a PUTS is its second word (30_encoding R79). -/
theorem buf_of_decode {w0 w1 buf : Word} {pos len : Byte} (h : decode w0 w1 = .ok (.puts buf pos len)) : w1 = buf := by
  unfold decode at h
  split at h
  · cases h
  split at h
  case h_8 => cases h
  all_goals split at h <;> cases h
  rfl

theorem State.hostEdits_of_none {s : State} (h : s.host.edits = []) : s.hostEdits = s := by
  simp [State.hostEdits, h]

theorem memRead_unedited {addr : Word} {onByte : Option Byte → State → Move} {s : State} (h : s.host.edits = []) :
    memRead addr onByte s =
      onByte (Memory.read s.mem addr.toNat) (s.log (.readAt addr (Memory.read s.mem addr.toNat))) := by
  simp [memRead, State.hostEdits_of_none h]

theorem seqTick_of_decode {s : State} {i : Instr} (h : decode s.req0 s.req1 = .ok i) : seqTick s = tickOf i s := by
  simp [seqTick, h]

theorem seqTick_read_unmapped {s : State} {buf : Word} {pos len : Byte}
    (hdecode : decode s.req0 s.req1 = .ok (.puts buf pos len)) (hph : s.seq.ph = .read) (hedits : s.host.edits = [])
    (hread : Memory.read s.mem (bufferAddr buf s.seq.idx).toNat = none) :
    seqTick s = .halt (s.log (.readAt (bufferAddr buf s.seq.idx) none)).raiseBufFault := by
  have hbuf : s.bufOf = buf := buf_of_decode hdecode
  calc seqTick s = putsTick s := seqTick_of_decode hdecode
    _ = memRead (bufferAddr buf s.seq.idx) putsByte s := by simp [putsTick, hph, hbuf]
    _ = .halt (s.log (.readAt (bufferAddr buf s.seq.idx) none)).raiseBufFault := by
      rw [memRead_unedited hedits, hread, putsByte]

theorem proceed_of_halt {s t : State} (h : seqTick s = .halt t) : proceed s = .next t := by
  have hpos : maxPrimitives = (2 ^ 37 - 1) + 1 := by simp [maxPrimitives]
  rw [proceed, hpos, run_halt h]

/-! ### The block that is FAULTED -/

theorem exec_faulted (i : Instr) {s : State} (h : s.seq.ph = .faulted) : exec i s = .fault .bufFault := by
  rw [exec_eq_serve, serve_faulted h]

/-! ### `FAULT`, once set -/

/-- Where `FAULT` is set in `s`, it is set in `t`. -/
def FaultKept (s t : State) : Prop := s.fault = 1 → t.fault = 1

theorem BufferFrame.faultKept : BufferFrame FaultKept where
  of_same hsame hfault := hsame.fault_eq.trans hfault
  trans hst htu hfault := htu (hst hfault)

theorem faultKept_raiseBufFault : UpdateWithin FaultKept State.raiseBufFault := fun s _ => s.raiseBufFault_fault

theorem faultKept_hostEdits : UpdateWithin FaultKept State.hostEdits := fun s hfault => by
  rcases s.hostEdits_cases with h | ⟨es, rest, -, h⟩ <;> rw [h] <;> exact hfault

/-- Settles O33: the read by `seqTick_read_unmapped`, after which the run halts; `FAULT` by `step_within`, since a PUTS
that faults sets it again and the host's changes leave it. -/
theorem bufferFaultStopsBlock : Obligations.BufferFaultStopsBlock := by
  refine ⟨fun s buf pos len hdecode hph hedits hread => ?_, fun s hfaulted => ?_, fun s t hfault h => ?_⟩
  · rw [step_busy (by simp [hph]) (by simp [hph])]
    exact proceed_of_halt (seqTick_read_unmapped hdecode hph hedits hread)
  · exact ⟨step_faulted hfaulted, fun i => exec_faulted i hfaulted⟩
  · exact step_within .faultKept faultKept_raiseBufFault faultKept_hostEdits h hfault

end Sys2Proof.Machine
end

section
/-! PROOFS. Reset (spec 70_reset_and_hazards R250, R251): a constructed block has the values of the reset table by
definition; that it then waits is the rule of an IDLE block to which nothing is presented (60_exceptions R238). -/

namespace Sys2Proof.Machine

open Sys2Proof

theorem State.busy_eq_false_iff {s : State} : s.busy = false ↔ s.seq.ph = .idle := by
  simp [State.busy]

theorem State.takeRequest_eq_none {s : State} (hqueue : s.host.queue = []) : s.takeRequest = none := by
  simp [State.takeRequest, hqueue]

theorem step_of_nothing_presented {s : State} (hidle : s.seq.ph = .idle) (hqueue : s.host.queue = []) :
    step s = .next s := by
  simp [step, hidle, State.takeRequest_eq_none hqueue]

@[simp] theorem State.constructed_ph (c : Config) : (State.constructed c).seq.ph = .idle := rfl

@[simp] theorem State.constructed_queue (c : Config) : (State.constructed c).host.queue = [] := rfl

/-- Settles O11: the registers have R250's values by definition; the block is not busy and keeps its state because it
is IDLE and the host presents nothing. -/
theorem resetValues : Obligations.ResetValues := by
  refine ⟨rfl, fun c => ?_⟩
  have hidle : (State.constructed c).seq.ph = .idle := State.constructed_ph c
  have hbusy : (State.constructed c).busy = false := State.busy_eq_false_iff.mpr hidle
  have hwaits : step (State.constructed c) = .next (State.constructed c) :=
    step_of_nothing_presented hidle (State.constructed_queue c)
  -- The parameters and `BL`, then after `SEQ.PH` every row from `SEQ.STEP` to the pins, hold by definition.
  exact ⟨rfl, rfl, hidle, rfl, rfl, rfl, rfl, rfl, rfl, rfl, rfl, rfl, rfl, rfl, rfl, rfl, rfl, rfl, rfl, rfl,
    hbusy, hwaits⟩

end Sys2Proof.Machine
end

section
/-! PROOFS. The decoder and the encoder (spec 30_encoding R78 to R82): each gives back what the other made, and what is
refused are the words R81 lists. -/

namespace Sys2Proof

open Machine

/-! ### Decoding the words of a request -/

/-- Only a PUTS has a word 1 to read, so any other may stand there for another request (30_encoding R80). -/
theorem decode_encode_of_word1 (i : Instr) (w1 : Word) (h : requestWords (encode i).w0 = 2 → w1 = (encode i).w1) :
    decode (encode i).w0 w1 = .ok i := by
  cases i with
  | puts buf pos len =>
    obtain rfl : w1 = buf := h (by simp [encode, requestWords])
    simp [decode, encode]
  | initx | initd | putc | setbl | blink | clear => simp [decode, encode]

/-- Settles O1: field by field, as the packed word gives each of them back. -/
theorem decodeEncodeRoundTrip : Obligations.DecodeEncodeRoundTrip := fun i =>
  decode_encode_of_word1 i _ fun _ => rfl

/-! ### The words of a decoded request -/

/-- A word whose `RSV` is 0 is packed from its other fields. -/
theorem packWord_fields {w : Word} (h : fieldRsv w = 0) : packWord (fieldOp w) (fieldA w) (fieldB w) (fieldC w) = w := by
  have hrsv : (fieldRsv w).toNat = 0 := by rw [h]; rfl
  apply BitVec.eq_of_toNat_eq
  simp only [packWord, fieldRsv, fieldOp, fieldA, fieldB, fieldC, BitVec.toNat_ofNat, BitVec.extractLsb'_toNat,
    Nat.shiftRight_eq_div_pow, Nat.reducePow] at hrsv ⊢
  omega

/-- `C` is its lowest bit where the others are 0. -/
theorem fieldC_eq_fieldOn {w : Word} (h : fieldCHigh w = 0) : fieldC w = (fieldOn w).setWidth 8 := by
  have hhigh : (fieldCHigh w).toNat = 0 := by rw [h]; rfl
  apply BitVec.eq_of_toNat_eq
  rw [toNat_bit]
  simp only [fieldCHigh, fieldC, fieldOn, BitVec.extractLsb'_toNat, Nat.shiftRight_eq_div_pow, Nat.reducePow] at hhigh ⊢
  omega

theorem fieldRsv_of_decode {w0 w1 : Word} {i : Instr} (h : decode w0 w1 = .ok i) : fieldRsv w0 = 0 := by
  by_contra hrsv
  rw [decode, if_pos hrsv] at h
  cases h

/-- What a decoded word says of its fields: those the request does not use are 0 (30_encoding R78, R79). -/
theorem packed_of_decode {w0 w1 : Word} {i : Instr} (h : decode w0 w1 = .ok i) :
    (encode i).w0 = packWord (fieldOp w0) (fieldA w0) (fieldB w0) (fieldC w0) ∧
      (requestWords w0 = 2 → (encode i).w1 = w1) := by
  have hrsv := fieldRsv_of_decode h
  have hop : fieldOp w0 = opcode i := (opcode_of_decode h).symm
  unfold decode at h
  rw [if_neg (not_not.mpr hrsv)] at h
  split at h
  case h_8 => cases h
  all_goals
    split at h
    case isFalse => cases h
    case isTrue hzero =>
      cases h
      simp_all [encode, opcode, requestWords, fieldC_eq_fieldOn]

/-- Settles O2: the request's words are packed from the fields of the word read. -/
theorem encodeOfDecodedWords : Obligations.EncodeOfDecodedWords := by
  intro w0 w1 i h
  obtain ⟨h0, h1⟩ := packed_of_decode h
  exact ⟨h0.trans (packWord_fields (fieldRsv_of_decode h)), h1⟩

/-! ### The illegal words -/

/-- The words of R81, field by field. -/
theorem illegalWord_iff_fields (w : Word) : illegalWord w ↔
    fieldOp w = 0 ∨ 8 ≤ (fieldOp w).toNat ∨ fieldRsv w ≠ 0 ∨ (fieldOp w ≠ 4 ∧ fieldA w ≠ 0) ∨
      (fieldOp w ≠ 3 ∧ fieldOp w ≠ 4 ∧ fieldB w ≠ 0) ∨ (fieldOp w = 5 ∧ fieldCHigh w ≠ 0) ∨
      ((fieldOp w = 1 ∨ fieldOp w = 2 ∨ fieldOp w = 4 ∨ fieldOp w = 7) ∧ fieldC w ≠ 0) := Iff.rfl

theorem decode_error_iff (w0 w1 : Word) : (∃ e, decode w0 w1 = .error e) ↔ illegalWord w0 := by
  rw [illegalWord_iff_fields, decode]
  by_cases hrsv : fieldRsv w0 = 0
  case neg =>
    rw [if_pos hrsv]
    exact ⟨fun _ => .inr (.inr (.inl hrsv)), fun _ => ⟨_, rfl⟩⟩
  rw [if_neg (not_not.mpr hrsv)]
  have hop : fieldOp w0 = BitVec.ofNat 4 (fieldOp w0).toNat := by simp
  split
  case h_8 h1 h2 h3 h4 h5 h6 h7 =>
    have hreserved : (fieldOp w0).toNat = 0 ∨ 8 ≤ (fieldOp w0).toNat := by
      simp only [imp_false] at h1 h2 h3 h4 h5 h6 h7
      omega
    exact ⟨fun _ => hreserved.imp (BitVec.eq_of_toNat_eq ·) .inl, fun _ => ⟨_, rfl⟩⟩
  all_goals
    next hvalue =>
    rw [hvalue] at hop
    rw [hop]
    split
    · simp_all
    · simp_all <;> tauto

/-! ### How many words a request takes -/

theorem requestWords_encode (i : Instr) :
    requestWords (encode i).w0 = (match i with | .puts _ _ _ => 2 | _ => 1) := by
  cases i <;> simp [encode, requestWords]

/-- Word 1 is read by a PUTS alone. -/
theorem decode_word1_unread {w0 : Word} (h : requestWords w0 = 1) (w1 w1' : Word) : decode w0 w1 = decode w0 w1' := by
  have hop : (fieldOp w0).toNat ≠ 4 := fun h4 => by
    have hputs : fieldOp w0 = 4 := BitVec.eq_of_toNat_eq h4
    simp [requestWords, hputs] at h
  unfold decode
  split
  · rfl
  split
  case h_4 h4 => exact absurd h4 hop
  all_goals rfl

/-- Settles O5: both halves from the operation code. -/
theorem requestLengthFromOpcode : Obligations.RequestLengthFromOpcode :=
  ⟨requestWords_encode, fun _ w1 w1' h => decode_word1_unread h w1 w1'⟩

/-- Settles O4: each word is evaluated. -/
theorem writtenOutWordsDecode : Obligations.WrittenOutWordsDecode := by
  unfold Obligations.WrittenOutWordsDecode
  decide

end Sys2Proof
end

section
/-! PROOFS. The step of an IDLE block (spec 60_exceptions R221, R238): what it does with the request presented to it, legal
or illegal, and with none; and that a busy block leaves it where it is. -/

namespace Sys2Proof.Machine

open Sys2Proof

section
variable {s : State} {r : Request} {q : List Request}

theorem State.takeRequest_eq_some (hqueue : s.host.queue = r :: q) : s.takeRequest = some (r, s.withQueue q) := by
  simp [State.takeRequest, hqueue, State.withQueue]

theorem step_of_legal {i : Instr} (hidle : s.seq.ph = .idle) (hqueue : s.host.queue = r :: q)
    (hdecode : decode r.w0 r.w1 = .ok i) : step s = exec i (s.withQueue q) := by
  simp [step, hidle, State.takeRequest_eq_some hqueue, hdecode]

theorem step_of_illegal (hidle : s.seq.ph = .idle) (hqueue : s.host.queue = r :: q) (hillegal : illegalWord r.w0) :
    step s = .next ((s.withQueue q).rejectIllegal r) := by
  obtain ⟨e, hdecode⟩ := (decode_error_iff r.w0 r.w1).mpr hillegal
  simp [step, hidle, State.takeRequest_eq_some hqueue, hdecode]

end

/-- Settles O3: the words by `decode_error_iff`, the answer by `step_of_illegal`; the all-zero word has `OP` 0. -/
theorem illegalWordsAreRefused : Obligations.IllegalWordsAreRefused :=
  ⟨decode_error_iff, fun _ _ _ hidle hqueue hillegal => step_of_illegal hidle hqueue hillegal, by decide⟩

theorem decode_of_decodeTableWord {nbits w : Nat} {i : Instr} (h : decodeTableWord nbits w = some i) :
    decode (requestOfBits nbits w).w0 (requestOfBits nbits w).w1 = .ok i := by
  unfold decodeTableWord at h
  split at h
  · next j hdecode => rw [hdecode, Option.some.inj h]
  · cases h

/-- Of an IDLE block the request placed is all that `withFetchWord` changes. -/
theorem State.withFetchWord_withQueue {s : State} (hidle : s.seq.ph = .idle) (nbits w : Nat) :
    (s.withFetchWord nbits w).withQueue s.host.queue = s := by
  have hseq : { s.seq with ph := .idle } = s.seq := by rw [← hidle]
  calc (s.withFetchWord nbits w).withQueue s.host.queue = { s with seq := { s.seq with ph := .idle } } := rfl
    _ = s := by rw [hseq]

/-- Settles O7: the queue's first request is served, and the one placed by `withFetchWord` is the first. -/
theorem stepServesDecodedRequest : Obligations.StepServesDecodedRequest := by
  refine ⟨fun s r q i hidle hqueue hdecode => step_of_legal hidle hqueue hdecode, fun s nbits w i hidle h => ?_⟩
  rw [step_of_legal (s := s.withFetchWord nbits w) rfl rfl (decode_of_decodeTableWord h),
    State.withFetchWord_withQueue hidle]

/-- Settles O8: with nothing presented there is nothing to take. -/
theorem idleBlockKeepsState : Obligations.IdleBlockKeepsState := fun _ hidle hqueue =>
  step_of_nothing_presented hidle hqueue

/-- Settles O9: the request waits by `serve_busy`; a run touches neither the queue nor the latches. -/
theorem busyBlockAcceptsNothing : Obligations.BusyBlockAcceptsNothing := by
  refine fun s hidle hfaulted => ⟨fun i => (exec_eq_serve i s).trans (serve_busy hidle hfaulted), fun t h => ?_⟩
  rw [step_busy hidle hfaulted] at h
  obtain ⟨h0, h1⟩ := Request.mk.inj (run_latched seqTick_ignoresHost h)
  exact ⟨run_queue seqTick_ignoresHost h, h0, h1⟩

end Sys2Proof.Machine
end

section
/-! PROOFS. What the earlier layers give at once: the bits of an encoded byte from `getLsbD_signalEncode`, the
configuration, the trace and the pins from `step_records`, the buffer memory from `step_within`. -/

namespace Sys2Proof.Machine

open Sys2Proof

/-! ### The bits of an encoded byte -/

/-- The bit of the value where a half begins (40_encoder_writer R101). -/
def Half.lowBit : Half → Nat
  | .upper => 4
  | .lower => 0

theorem getLsbD_nibbleOf (v : Byte) (half : Half) {j : Nat} (hj : j < 4) :
    (nibbleOf v half).getLsbD j = v.getLsbD (half.lowBit + j) := by
  cases half <;> simp [nibbleOf, Half.lowBit, hj]

theorem getLsbD_coerceRs (rs : Nat) : (coerceRs rs).getLsbD 0 = decide (rs ≠ 0) := by
  by_cases h : rs = 0 <;> simp [coerceRs, h]

/-- Settles O13: the last assignment to a position is the one that stands, since no two lines share it. -/
theorem encoderPlacesEveryBit : Obligations.EncoderPlacesEveryBit := by
  rintro c v half rs bl ⟨hc, -⟩ p low
  have hlow : low = half.lowBit := by cases half <;> rfl
  simp only [Config.positions, List.nodup_cons, List.mem_cons, List.not_mem_nil, or_false, not_or] at hc
  obtain ⟨⟨hbl7, hbl6, hbl5, hbl4, -, hblrs⟩, ⟨h76, h75, h74, -, h7rs⟩, ⟨h65, h64, -, h6rs⟩, ⟨h54, -, h5rs⟩, ⟨-, h4rs⟩,
    -⟩ := hc
  have hnibble (j : Nat) (hj : j < 4) : (nibbleOf v half).getLsbD j = v.getLsbD (low + j) :=
    hlow ▸ getLsbD_nibbleOf v half hj
  simp only [p, getLsbD_signalEncode, getLsbD_coerceRs, hnibble, Nat.reduceLT]
  simp [*]

/-! ### The record of a run -/

/-- Settles O40: no step writes the configuration. -/
theorem configurationNeverWritten : Obligations.ConfigurationNeverWritten := fun _ _ h => (step_records h).cfg_eq

/-- Settles O46: what a step adds is the rest of the trace. -/
theorem traceOnlyGrows : Obligations.TraceOnlyGrows := by
  intro s t h
  obtain ⟨-, es, htrace, -, -⟩ := step_records h
  exact ⟨es, htrace⟩

/-- Settles O47: each primitive leaves on the pins what its event says. -/
theorem pinsFollowBytesWritten : Obligations.PinsFollowBytesWritten := by
  intro s t h
  obtain ⟨-, es, htrace, hpins, -⟩ := step_records h
  exact ⟨es, htrace, hpins⟩

theorem waitsLongEnough_of_lawful {c : Config} {l : List Event} (h : ∀ e ∈ l, Event.LawfulSome c e) :
    waitsLongEnough c l := by
  intro d us hmem
  obtain ⟨bl, hlawful⟩ := h _ hmem
  cases hlawful with
  | delayed hus => exact hus

/-- Settles O45: a lawful wait lasts its class's duration. -/
theorem waitsLastTheirDuration : Obligations.WaitsLastTheirDuration := by
  intro s t hlong h d us hmem
  obtain ⟨hcfg, es, htrace, -, hes⟩ := step_records h
  rw [htrace] at hmem
  rw [hcfg]
  exact (List.mem_append.mp hmem).elim (hlong d us) (waitsLongEnough_of_lawful hes d us)

/-- Settles O43: the events of one primitive are lawful under the `BL` it started with. -/
theorem portByteCarriesBacklightAtItsWrite : Obligations.PortByteCarriesBacklightAtItsWrite := by
  rintro s t ⟨hdistinct, -⟩ h
  have hextends : Extends (Event.Lawful s.cfg s.bl) s t := by
    rcases h with h | h <;> simpa [h] using seqTick_records s
  obtain ⟨-, es, htrace, -, hes⟩ := hextends
  exact ⟨es, htrace, fun b r hmem => (hes _ hmem).port_carriesBacklight hdistinct⟩

/-! ### The buffer memory -/

/-- Where the host makes no change of its own in `s`, the memory of `t` is that of `s`, and no change is pending. -/
def MemoryKept (s t : State) : Prop := s.host.edits = [] → t.mem = s.mem ∧ t.host.edits = []

theorem BufferFrame.memoryKept : BufferFrame MemoryKept where
  of_same hsame hedits := ⟨hsame.mem_eq, hsame.edits_eq.trans hedits⟩
  trans hst htu hedits :=
    have ⟨hmem, hedits'⟩ := hst hedits
    have ⟨hmem', hedits''⟩ := htu hedits'
    ⟨hmem'.trans hmem, hedits''⟩

theorem memoryKept_raiseBufFault : UpdateWithin MemoryKept State.raiseBufFault := fun _ hedits => ⟨rfl, hedits⟩

theorem memoryKept_hostEdits : UpdateWithin MemoryKept State.hostEdits := fun s hedits => by
  rw [State.hostEdits_of_none hedits]
  exact ⟨rfl, hedits⟩

/-- Of the buffer and the host, a request but a PUTS changes nothing (10_state R35). -/
theorem exec_sameBuffer {i : Instr} (hputs : ∀ buf pos len, i ≠ .puts buf pos len) {s t : State}
    (hidle : s.seq.ph = .idle) (h : exec i s = .next t) : SameBuffer s t ∧ t.host = s.host := by
  have hsame := exec_within .sameBuffer (tickOf_sameBuffer hputs) hidle h
  refine ⟨hsame, ?_⟩
  calc t.host = ⟨t.host.queue, t.host.edits⟩ := rfl
    _ = ⟨s.host.queue, s.host.edits⟩ := by rw [exec_queue hidle h, hsame.edits_eq]

theorem exec_busy {i : Instr} {s t : State} (hidle : s.seq.ph ≠ .idle) (h : exec i s = .next t) : t = s := by
  rw [exec_eq_serve] at h
  by_cases hfaulted : s.seq.ph = .faulted
  · rw [serve_faulted hfaulted] at h
    cases h
  · rw [serve_busy hidle hfaulted] at h
    exact (Host.Outcome.next.inj h).symm

/-- Settles O51: the requests but PUTS by `exec_sameBuffer`; a step by `step_within`, the host's changes being none. -/
theorem noRequestWritesBuffer : Obligations.NoRequestWritesBuffer := by
  refine ⟨fun s t i hputs h => ?_, fun s t hedits h => ?_⟩
  · by_cases hidle : s.seq.ph = .idle
    · obtain ⟨hsame, hhost⟩ := exec_sameBuffer hputs hidle h
      exact ⟨fun a => by rw [hsame.mem_eq], hhost⟩
    · obtain rfl := exec_busy hidle h
      exact ⟨fun _ => rfl, rfl⟩
  · obtain ⟨hmem, hedits'⟩ := step_within .memoryKept memoryKept_raiseBufFault memoryKept_hostEdits h hedits
    exact ⟨fun a => by rw [hmem], hedits'⟩

theorem seqTick_read {s : State} {buf : Word} {pos len : Byte} (hdecode : decode s.req0 s.req1 = .ok (.puts buf pos len))
    (hph : s.seq.ph = .read) : seqTick s = memRead (bufferAddr buf s.seq.idx) putsByte s := by
  have hbuf : s.bufOf = buf := buf_of_decode hdecode
  rw [seqTick_of_decode hdecode, tickOf, putsTick, hph, hbuf]

/-- Settles O30: the sum of address and index wraps; the READ phase reads after the host's changes. -/
theorem bufferReadIsLazyAndWraps : Obligations.BufferReadIsLazyAndWraps := by
  refine ⟨fun buf i => ?_, fun s buf pos len hdecode hph => seqTick_read hdecode hph⟩
  rw [bufferAddr, BitVec.toNat_add, BitVec.toNat_ofNat, Nat.add_mod_mod]

end Sys2Proof.Machine
end

section
/-! PROOFS. The sequencers of the seven requests as one (spec 10_state R30, 30_encoding R86): which phases a request
enters, where each phase leads, and the one inversion of a primitive, `tickOf_fires`, that says everything it can do. -/

namespace Sys2Proof.Machine

open Sys2Proof

/-! ### Where each request goes -/

/-- Where a request goes once its session is begun. -/
def firstOf : Instr → State → State
  | .initx => initxLoop
  | .initd => initdStep 1
  | .putc _ _ => putcFirst
  | .puts _ _ _ => putsFirst
  | .setbl _ | .blink _ => blFirst
  | .clear => clearFirst

/-- The mode of the command a request is writing and the settle class it owes. -/
def commandOf : Instr → State → Option (Mode × DelayClass)
  | .initd, s => (initRom s.seq.step).map fun row => (row.mode, row.cls)
  | .putc _ _, _ | .puts _ _ _, _ => some (.nibble, .std)
  | .clear, _ => some (.nibble, .clear)
  | .initx, _ | .setbl _, _ | .blink _, _ => none

/-- Where a request goes at the end of a command. -/
def nextOf : Instr → State → State
  | .initd => initdNext
  | .putc _ _ => putcNext
  | .puts _ _ _ => putsNext
  | .clear => fun s => s.goto .close
  | .initx | .setbl _ | .blink _ => id

/-- Where a request goes once its last delay is over. -/
def doneOf : Instr → State → State
  | .initd => initdDone
  | .blink _ => fun s => s.goto .blWait
  | .initx | .putc _ _ | .puts _ _ _ | .setbl _ | .clear => State.respondOk

/-- Whether a request writes LCD commands. -/
def writesCommands : Instr → Bool
  | .initd | .putc _ _ | .puts _ _ _ | .clear => true
  | .initx | .setbl _ | .blink _ => false

/-- Where a request goes after the close of a session in good order. -/
def afterOf (i : Instr) : State → State :=
  if writesCommands i then State.finishCommands (doneOf i) else doneOf i

/-- The phases a request enters. -/
def enters (i : Instr) : Phase → Bool
  | .idle => false
  | .openBus | .preWrite | .close | .resp => true
  | .write | .waitIn | .waitTail => writesCommands i
  | .blWrite => setsBacklight i
  | .raw => (i matches .initx)
  | .blWait => (i matches .blink _)
  | .read | .faulted => (i matches .puts _ _ _)

/-- The phase the sequencer is in gives the request a primitive to perform. -/
structure Meaningful (i : Instr) (s : State) : Prop where
  enters_ph : enters i s.seq.ph = true
  raw_byte : s.seq.ph = .raw → s.seq.idx.toNat < s.cfg.expanderInitSeq.length
  command : s.seq.ph = .write → (commandOf i s).isSome = true

/-- The primitive of a phase, whatever request is in it. -/
def phaseMove (i : Instr) (s : State) : Move :=
  match s.seq.ph with
  | .openBus => openPhase (firstOf i) s
  | .preWrite => prePhase (firstOf i) s
  | .write =>
    match commandOf i s with
    | some (mode, cls) => writePhase mode cls (nextOf i) s
    | none => .refused .unreachableSeq
  | .waitIn => waitInPhase s
  | .read => memRead (bufferAddr s.bufOf s.seq.idx) putsByte s
  | .close => closePhase (afterOf i) s
  | .waitTail => waitTailPhase (doneOf i) s
  | .raw =>
    match s.cfg.expanderInitSeq[s.seq.idx.toNat]? with
    | some b => put b .raw initxNext s
    | none => .refused .unreachableSeq
  | .blWrite => blWritePhase s
  | .blWait => waitFor .blink blinkNext s
  | .resp => respPhase s
  | .faulted => .halt s
  | .idle => .refused .unreachableSeq

theorem tickOf_eq_phaseMove (i : Instr) (s : State) :
    tickOf i s = if enters i s.seq.ph then phaseMove i s else .refused .unreachableSeq := by
  unfold phaseMove
  cases i <;> unfold tickOf <;> dsimp only
  case initx => unfold initxTick; cases s.seq.ph <;> rfl
  case initd =>
    unfold initdTick
    cases s.seq.ph
    case write => rcases hrow : initRom s.seq.step with _ | row <;> simp [commandOf, enters, writesCommands, nextOf, hrow]
    all_goals rfl
  case putc => unfold putcTick; cases s.seq.ph <;> rfl
  case puts => unfold putsTick; cases s.seq.ph <;> rfl
  case setbl => unfold setblTick; cases s.seq.ph <;> rfl
  case blink => unfold blinkTick; cases s.seq.ph <;> rfl
  case clear => unfold clearTick; cases s.seq.ph <;> rfl

/-! ### What a primitive can do -/

/-- The phases that wait for the timer. -/
def Phase.waits : Phase → Bool
  | .waitIn | .waitTail | .blWait => true
  | .idle | .openBus | .preWrite | .write | .read | .close | .raw | .blWrite | .resp | .faulted => false

/-- The stage a failed call of a phase is recorded under (60_exceptions R223, R225). -/
def Phase.stage : Phase → ErrStage
  | .openBus => .opening
  | _ => .writing

/-- The state once the phase has made its call of the transport. -/
def State.call (s : State) : State :=
  s.called (match s.seq.ph with | .openBus => State.enterSession | _ => State.countWrite)

/-- The state once that call, whose event is `e`, has been answered; `t` is the tape after the answer. -/
def State.afterCall (t : Tape Answer) (e : Event) (s : State) : State :=
  { (s.call.answered t).log e with pins := pinsOver s.pins [e] }

/-- The class a phase waits for. -/
def State.waitClass (s : State) : DelayClass :=
  match s.seq.ph with
  | .blWait => .blink
  | _ => s.pend

/-- The state once that wait has ended. -/
def State.afterWait (late : Nat) (t : Tape Nat) (s : State) : State :=
  { s with timer := t }.log (.delayed s.waitClass (duration s.cfg s.waitClass + late))

/-- The state once the byte of a PUTS at `SEQ.IDX` has been read. -/
def State.afterRead (s : State) : State :=
  s.hostEdits.log (.readAt (bufferAddr s.bufOf s.seq.idx)
    (Memory.read s.hostEdits.mem (bufferAddr s.bufOf s.seq.idx).toNat))

/-- Where a request goes after a call answered OK. -/
def contOf (i : Instr) (p : Phase) (s : State) : State :=
  match p with
  | .openBus => if s.cfg.regPrefix then s.goto .preWrite else firstOf i s
  | .preWrite => firstOf i s
  | .write =>
    match commandOf i s with
    | some (mode, cls) => s.afterByte mode fun u => nextOf i { u with pend := cls }
    | none => s
  | .raw => initxNext s
  | .blWrite => s.goto .close
  | .idle | .waitIn | .read | .close | .waitTail | .blWait | .resp | .faulted => s

/-- Where a request goes after a wait. -/
def resumeOf (i : Instr) (p : Phase) (s : State) : State :=
  match p with
  | .waitIn => { s with pend := .none }.startCommand
  | .waitTail => doneOf i { s with pend := .none }
  | .blWait => blinkNext s
  | .idle | .openBus | .preWrite | .write | .read | .close | .raw | .blWrite | .resp | .faulted => s

/-- Everything one primitive of a request can do. -/
inductive Fires (i : Instr) (s : State) : Move → Prop where
  | unanswered (hcalls : s.seq.ph.calls = true) (hdraw : s.transport.draw = none) : Fires i s (.halt s.call)
  | failed {t : Tape Answer} {e : Event} (hcalls : s.seq.ph.calls = true) (hdraw : s.transport.draw = some (.err, t))
      (he : s.callEvent .err = some e) : Fires i s (.go ((s.afterCall t e).raiseBusError s.seq.ph.stage))
  | answered {t : Tape Answer} {e : Event} (hcalls : s.seq.ph.calls = true) (hdraw : s.transport.draw = some (.ok, t))
      (he : s.callEvent .ok = some e) : Fires i s (.go (contOf i s.seq.ph (s.afterCall t e)))
  | unended (hwaits : s.seq.ph.waits = true) (howed : s.waitClass ≠ .none) (hdraw : s.timer.draw = none) :
      Fires i s (.halt s)
  | ended {late : Nat} {t : Tape Nat} (hwaits : s.seq.ph.waits = true) (howed : s.waitClass ≠ .none)
      (hdraw : s.timer.draw = some (late, t)) : Fires i s (.go (resumeOf i s.seq.ph (s.afterWait late t)))
  | notOwed (hwaits : s.seq.ph.waits = true) (howed : s.waitClass = .none) : Fires i s (.go (resumeOf i s.seq.ph s))
  | read (hph : s.seq.ph = .read) :
      Fires i s (putsByte (Memory.read s.hostEdits.mem (bufferAddr s.bufOf s.seq.idx).toNat) s.afterRead)
  | closed (hph : s.seq.ph = .close) (habort : s.seq.abort = 0) : Fires i s (.go (afterOf i s.endSession))
  | closedAbort (hph : s.seq.ph = .close) (habort : s.seq.abort = 1) : Fires i s (.go s.endSession.abortClosed)
  | responded (hph : s.seq.ph = .resp) :
      Fires i s (.halt { s.log (.responded s.status) with seq := s.seq.afterResponse })
  | faulted (hph : s.seq.ph = .faulted) : Fires i s (.halt s)

/-- All that a call changes: the session at an open, the count at a write, each once. -/
theorem State.call_eq (s : State) : s.call = { s with
    session := if s.seq.ph = .openBus ∧ s.seq.asked ≠ 1 then 1 else s.session
    errWidx := if s.seq.ph = .openBus ∨ s.seq.asked = 1 then s.errWidx else s.errWidx + 1
    seq := { s.seq with asked := 1 } } := by
  unfold State.call
  by_cases hasked : s.seq.asked = 1
  · have hseq : { s.seq with asked := 1 } = s.seq := by rw [← hasked]
    rw [State.called_again hasked, if_neg (fun h => h.2 hasked), if_pos (.inr hasked)]
    exact congrArg (fun q : Seq => { s with seq := q }) hseq.symm
  · have hzero : s.seq.asked = 0 := by bv_omega
    rw [State.called_fresh hzero]
    cases hph : s.seq.ph <;> simp [hzero, State.enterSession, State.countWrite]

/-- All that a call and its answer change. -/
theorem State.afterCall_eq (t : Tape Answer) (e : Event) (s : State) : s.afterCall t e = { s with
    session := if s.seq.ph = .openBus ∧ s.seq.asked ≠ 1 then 1 else s.session
    errWidx := if s.seq.ph = .openBus ∨ s.seq.asked = 1 then s.errWidx else s.errWidx + 1
    seq := { s.seq with asked := 0 }
    transport := t
    trace := s.trace ++ [e]
    pins := pinsOver s.pins [e] } := by
  rw [State.afterCall, State.call_eq]
  rfl

section
variable (s : State) (t : Tape Answer) (e : Event)

@[simp] theorem State.call_seq : s.call.seq = { s.seq with asked := 1 } := by rw [State.call_eq]
@[simp] theorem State.call_cfg : s.call.cfg = s.cfg := by rw [State.call_eq]
@[simp] theorem State.call_transport : s.call.transport = s.transport := by rw [State.call_eq]
@[simp] theorem State.call_trace : s.call.trace = s.trace := by rw [State.call_eq]
@[simp] theorem State.afterCall_seq : (s.afterCall t e).seq = { s.seq with asked := 0 } := by rw [State.afterCall_eq]
@[simp] theorem State.afterCall_cfg : (s.afterCall t e).cfg = s.cfg := by rw [State.afterCall_eq]
@[simp] theorem State.afterCall_pend : (s.afterCall t e).pend = s.pend := by rw [State.afterCall_eq]
@[simp] theorem State.afterCall_trace : (s.afterCall t e).trace = s.trace ++ [e] := by rw [State.afterCall_eq]

end

/-- The command a request is writing is a matter of its INITD step alone. -/
theorem commandOf_congr {i : Instr} {s u : State} (h : u.seq.step = s.seq.step) : commandOf i u = commandOf i s := by
  cases i
  case initd => rw [commandOf, commandOf, h]
  all_goals rfl

theorem Phase.stage_ne_none (p : Phase) : p.stage ≠ .none := by
  cases p <;> nofun

theorem Phase.stage_of_ne_openBus {p : Phase} (h : p ≠ .openBus) : p.stage = .writing := by
  unfold Phase.stage
  split
  · contradiction
  · rfl

/-- A bus write, in whichever phase makes it. -/
theorem put_fires {i : Instr} {s : State} {b : Byte} {kind : WriteKind} {next : State → State}
    (hcalls : s.seq.ph.calls = true) (hopen : s.seq.ph ≠ .openBus) (hevent : ∀ a, s.callEvent a = some (.wrote b kind a))
    (hnext : ∀ t, next (s.afterCall t (.wrote b kind .ok)) = contOf i s.seq.ph (s.afterCall t (.wrote b kind .ok))) :
    Fires i s (put b kind next s) := by
  have hcall : s.call = s.called State.countWrite := by
    unfold State.call
    split
    · contradiction
    · rfl
  have hstage : s.seq.ph.stage = .writing := Phase.stage_of_ne_openBus hopen
  rcases put_cases b kind next s with ⟨hdraw, hm⟩ | ⟨t, hdraw, hm⟩ | ⟨t, hdraw, hm⟩ <;> rw [hm, ← hcall]
  · exact .unanswered hcalls hdraw
  · have h := Fires.answered (i := i) hcalls hdraw (hevent .ok)
    rwa [← hnext] at h
  · have h := Fires.failed (i := i) hcalls hdraw (hevent .err)
    rwa [hstage] at h

theorem openPhase_fires {i : Instr} {s : State} (hph : s.seq.ph = .openBus) : Fires i s (openPhase (firstOf i) s) := by
  have hcalls : s.seq.ph.calls = true := by rw [hph]; rfl
  have hcall : s.called State.enterSession = s.call := by rw [State.call, hph]
  have hcfg : s.call.cfg = s.cfg := hcall ▸ (quiet_called quiet_enterSession s).cfg_eq
  have hevent (a : Answer) : s.callEvent a = some (.opened s.call.cfg.devAddr a) := by
    rw [hcfg, State.callEvent, hph]
  unfold openPhase
  rcases busOpen_cases (fun s => if s.cfg.regPrefix then s.goto .preWrite else firstOf i s) s with
    ⟨hdraw, hm⟩ | ⟨t, hdraw, hm⟩ | ⟨t, hdraw, hm⟩ <;> rw [hm, hcall]
  · exact .unanswered hcalls hdraw
  · have h := Fires.answered (i := i) hcalls hdraw (hevent .ok)
    have hpins : s.afterCall t (.opened s.call.cfg.devAddr .ok) =
        (s.call.answered t).log (.opened s.call.cfg.devAddr .ok) := by
      have hkept : s.call.pins = s.pins := hcall ▸ (quiet_called quiet_enterSession s).pins_eq
      exact congrArg (fun p => { (s.call.answered t).log (.opened s.call.cfg.devAddr .ok) with pins := p }) hkept.symm
    rwa [hpins, hph] at h
  · have h := Fires.failed (i := i) hcalls hdraw (hevent .err)
    rwa [hph] at h

theorem waitFor_fires {i : Instr} {s : State} {next : State → State} (hwaits : s.seq.ph.waits = true)
    (howed : s.waitClass ≠ .none) (hnext : resumeOf i s.seq.ph = next) : Fires i s (waitFor s.waitClass next s) := by
  rcases waitFor_cases s.waitClass next s with ⟨hdraw, hm⟩ | ⟨late, t, hdraw, hm⟩ <;> rw [hm]
  · exact .unended hwaits howed hdraw
  · have h := Fires.ended (i := i) hwaits howed hdraw
    rwa [hnext] at h

/-- The wait for the delay owed, where there is one. -/
theorem owedWait_fires {i : Instr} {s : State} {f : State → State} (hwaits : s.seq.ph.waits = true)
    (hclass : s.waitClass = s.pend) (hresume : resumeOf i s.seq.ph = fun u => f { u with pend := .none }) :
    Fires i s (if s.pend = .none then .go (f s) else waitFor s.pend (fun u => f { u with pend := .none }) s) := by
  split
  case isTrue hnone =>
    have h := Fires.notOwed (i := i) hwaits (hclass.trans hnone)
    have hstate : { s with pend := .none } = s := by rw [← hnone]
    rw [hresume] at h
    beta_reduce at h
    rwa [hstate] at h
  case isFalse howed =>
    rw [← hclass]
    exact waitFor_fires hwaits (hclass ▸ howed) hresume

/-- Whatever the agents answer, a primitive that has a meaning does one of the things `Fires` lists. -/
theorem tickOf_fires {i : Instr} {s : State} (h : Meaningful i s) : Fires i s (tickOf i s) := by
  obtain ⟨henters, hraw, hcommand⟩ := h
  rw [tickOf_eq_phaseMove, if_pos henters, phaseMove]
  rcases hph : s.seq.ph <;> dsimp only
  case idle => simp [enters, hph] at henters
  case openBus => exact openPhase_fires hph
  case preWrite =>
    exact put_fires (by simp [hph, Phase.calls]) (by simp [hph]) (by simp [State.callEvent, hph]) (by simp [contOf, hph])
  case write =>
    obtain ⟨⟨mode, cls⟩, hcmd⟩ := Option.isSome_iff_exists.mp (hcommand hph)
    have hsame (t : Tape Answer) (e : Event) : commandOf i (s.afterCall t e) = some (mode, cls) := by
      rw [← hcmd]
      exact commandOf_congr (by rw [State.afterCall_seq])
    rw [hcmd]
    exact put_fires (by simp [hph, Phase.calls]) (by simp [hph]) (by simp [State.callEvent, hph, State.writerByteOf])
      (by simp [contOf, hph, hsame])
  case waitIn =>
    exact owedWait_fires (f := State.startCommand) (by simp [hph, Phase.waits]) (by simp [State.waitClass, hph])
      (by rw [hph]; rfl)
  case read => exact .read hph
  case close =>
    by_cases habort : s.seq.abort = 1
    · rw [closePhase_abort habort]
      exact .closedAbort hph habort
    · have hzero : s.seq.abort = 0 := by bv_omega
      rw [closePhase_normal hzero]
      exact .closed hph hzero
  case waitTail =>
    exact owedWait_fires (f := doneOf i) (by simp [hph, Phase.waits]) (by simp [State.waitClass, hph])
      (by rw [hph]; rfl)
  case raw =>
    rw [List.getElem?_eq_getElem (hraw hph)]
    exact put_fires (by simp [hph, Phase.calls]) (by simp [hph])
      (by simp [State.callEvent, hph, List.getElem?_eq_getElem (hraw hph)]) (by simp [contOf, hph])
  case blWrite =>
    exact put_fires (by simp [hph, Phase.calls]) (by simp [hph]) (by simp [State.callEvent, hph]) (by simp [contOf, hph])
  case blWait =>
    have hclass : s.waitClass = .blink := by simp [State.waitClass, hph]
    rw [← hclass]
    exact waitFor_fires (by simp [hph, Phase.waits]) (by simp [hclass]) (by rw [hph]; rfl)
  case resp => exact .responded hph
  case faulted => exact .faulted hph

theorem tickOf_refused {i : Instr} {s : State} (h : enters i s.seq.ph = false) :
    tickOf i s = .refused .unreachableSeq := by
  rw [tickOf_eq_phaseMove, h, if_neg Bool.false_ne_true]

end Sys2Proof.Machine
end

section
/-! PROOFS. The invariant of the machine (spec 93 U14): a request's sequencer stays at the request's positions, its
session, delay, abort and trace where they belong. Most of `Inv` is the same whatever the phase: `Settled`. -/

namespace Sys2Proof.Machine

open Sys2Proof

/-! ### The positions of a request -/

/-- The values of `SEQ.STEP` in a phase of a request. -/
def StepLegal (i : Instr) (p : Phase) (k : BitVec 4) : Prop :=
  match i, p with
  | .initd, .openBus | .initd, .preWrite => k = 0
  | .initd, .write | .initd, .waitIn => 1 ≤ k.toNat ∧ k.toNat ≤ 10
  | .initd, _ => k.toNat ≤ 10
  | _, _ => k = 0

theorem legalPosition_iff (i : Instr) (s : State) :
    legalPosition i s = true ↔ enters i s.seq.ph = true ∧ StepLegal i s.seq.ph s.seq.step ∧
      (s.seq.ph = .raw → s.seq.idx.toNat < s.cfg.expanderInitSeq.length) ∧
      (s.seq.ph = .close → writesCommands i = true ∨ s.pend = .none) := by
  unfold legalPosition StepLegal
  cases i <;> cases s.seq.ph <;> simp [enters, writesCommands, setsBacklight]

/-! ### What the invariant says whatever the phase -/

/-- Where a trace stands inside and outside a session. -/
def Bracket.ofSession : Bool → Bracket
  | true => .inside
  | false => .outside

theorem Bracket.after_append (b : Bracket) (l₁ l₂ : List Event) :
    Bracket.after b (l₁ ++ l₂) = (Bracket.after b l₁).bind fun b' => Bracket.after b' l₂ := by
  induction l₁ generalizing b with
  | nil => rfl
  | cons e l ih =>
    rw [List.cons_append, Bracket.after, Bracket.after]
    rcases b.next e with _ | b'
    · rfl
    · exact ih b'

theorem bracketOf_snoc {l : List Event} {b b' : Bracket} {e : Event} (h : bracketOf l = some b)
    (hnext : b.next e = some b') : bracketOf (l ++ [e]) = some b' := by
  have hlast : Bracket.after b [e] = some b' := by simp [Bracket.after, hnext]
  rw [bracketOf, Bracket.after_append, ← bracketOf, h, Option.bind_some, hlast]

/-- A request in good order, inside its session or outside: nothing is outstanding, no abort is on its way, and the trace
stands where the session does. -/
structure Settled (i : Instr) (inside : Bool) (s : State) : Prop where
  cfg_wf : s.cfg.wf
  mem_wf : Memory.wf s.mem
  decode_eq : decode s.req0 s.req1 = .ok i
  session_iff : s.session = 1 ↔ inside = true
  asked_eq : s.seq.asked = 0
  abort_eq : s.seq.abort = 0
  fault_ne : s.fault ≠ 1
  bracket_eq : bracketOf s.trace = some (.ofSession inside)

/-- The sequencer is at a position of the request, and the registers that depend on the phase are as it needs them. -/
structure Placed (i : Instr) (s : State) : Prop where
  enters_ph : enters i s.seq.ph = true
  not_faulted : s.seq.ph ≠ .faulted
  step_legal : StepLegal i s.seq.ph s.seq.step
  raw_byte : s.seq.ph = .raw → s.seq.idx.toNat < s.cfg.expanderInitSeq.length
  close_pend : s.seq.ph = .close → writesCommands i = true ∨ s.pend = .none
  sub_ok : s.subOk
  pend_ok : s.pendOk
  resp_ok : s.seq.ph = .resp → s.status = .ok

/-- The invariant, of a block that is busy. -/
structure InvBusy (s : State) : Prop where
  inv : Inv s
  busy : s.seq.ph ≠ .idle

theorem Phase.of_calls {p : Phase} (h : p.calls = true) :
    p ≠ .idle ∧ p ≠ .close ∧ p ≠ .resp ∧ p ≠ .faulted := by
  revert h
  cases p <;> decide

theorem Phase.of_waits {p : Phase} (h : p.waits = true) :
    p ≠ .idle ∧ p ≠ .close ∧ p ≠ .resp ∧ p ≠ .faulted ∧ p ≠ .write ∧ p.calls = false := by
  revert h
  cases p <;> decide

theorem ne_idle_of_enters {i : Instr} {p : Phase} (h : enters i p = true) : p ≠ .idle := by
  rintro rfl
  cases h

theorem State.traceOk_of_live {s : State} (habort : s.seq.abort = 0) (hfaulted : s.seq.ph ≠ .faulted) :
    s.traceOk ↔ bracketOf s.trace = some (.ofSession s.seq.ph.inSession) := by
  have hfits (b : Bracket) : s.bracketFits b = true ↔ b = .ofSession s.seq.ph.inSession := by
    cases hin : s.seq.ph.inSession <;> simp [State.bracketFits, habort, hfaulted, hin, Bracket.ofSession]
  simp only [State.traceOk, Option.any_eq_true, hfits]
  simp

theorem Settled.invBusy {i : Instr} {s : State} (h : Settled i s.seq.ph.inSession s) (hplaced : Placed i s) :
    InvBusy s := by
  obtain ⟨henters, hfaulted, hstep, hraw, hclose, hsub, hpend, hresp⟩ := hplaced
  have hbusy := ne_idle_of_enters henters
  have hlegal := (legalPosition_iff i s).mpr ⟨henters, hstep, hraw, hclose⟩
  refine ⟨⟨h.cfg_wf, h.mem_wf, fun _ => ?_, fun hidle => absurd hidle hbusy, hsub, ?_, ?_, hpend, ?_, ?_, ?_⟩, hbusy⟩
  · simpa only [h.decode_eq] using hlegal
  · simpa [State.sessionOk, h.asked_eq] using h.session_iff
  · simp [h.asked_eq]
  · simpa [State.abortOk, h.abort_eq] using hresp
  · exact iff_of_false h.fault_ne hfaulted
  · exact (State.traceOk_of_live h.abort_eq hfaulted).mpr h.bracket_eq

/-- `BL`, the sequencer's position, the delay owed, `STATUS` and `LINK` are no part of it. -/
theorem Settled.to {i : Instr} {inside : Bool} {s t : State} (h : Settled i inside s)
    (ht : t = { s with bl := t.bl, seq := t.seq, pend := t.pend, status := t.status, link := t.link })
    (hasked : t.seq.asked = s.seq.asked) (habort : t.seq.abort = s.seq.abort) : Settled i inside t := by
  rw [ht]
  exact ⟨h.cfg_wf, h.mem_wf, h.decode_eq, h.session_iff, hasked.trans h.asked_eq, habort.trans h.abort_eq, h.fault_ne,
    h.bracket_eq⟩

theorem Settled.invBusy_to {i : Instr} {inside : Bool} {s t : State} (h : Settled i inside s)
    (ht : t = { s with bl := t.bl, seq := t.seq, pend := t.pend, status := t.status, link := t.link })
    (hasked : t.seq.asked = s.seq.asked) (habort : t.seq.abort = s.seq.abort) (hin : t.seq.ph.inSession = inside)
    (hplaced : Placed i t) : InvBusy t :=
  Settled.invBusy (hin ▸ h.to ht hasked habort) hplaced

/-- An IDLE block that owes nothing and keeps nothing of the model's own, outside any session. -/
theorem inv_of_idle {s : State} (hcfg : s.cfg.wf) (hmem : Memory.wf s.mem) (hidle : s.seq.ph = .idle)
    (hpend : s.pend = .none)
    (hown : s.seq.step = 0 ∧ s.seq.issued = 0 ∧ s.seq.rs = 0 ∧ s.seq.abort = 0 ∧ s.seq.asked = 0)
    (hsub : s.seq.sub = .hiSet) (hsession : s.session ≠ 1) (hfault : s.fault ≠ 1)
    (houtside : bracketOf s.trace = some .outside) : Inv s := by
  obtain ⟨hstep, hissued, hrs, habort, hasked⟩ := hown
  refine ⟨hcfg, hmem, absurd hidle, fun _ => ⟨hpend, hstep, hissued, hrs, habort, hasked⟩, fun _ _ => hsub, ?_, ?_, ?_, ?_,
    ?_, ?_⟩
  · exact iff_of_false hsession (by simp [hidle, Phase.inSession])
  · simp [State.askedOk, hasked]
  · simp [State.pendOk, hidle, hpend]
  · simp [State.abortOk, habort, hidle]
  · exact iff_of_false hfault (by simp [hidle])
  · rw [State.traceOk_of_live habort (by simp [hidle]), hidle]
    exact houtside

/-! ### Where a request in good order goes next -/

theorem StepLegal.waitIn {i : Instr} {k : BitVec 4} (h : StepLegal i .write k) : StepLegal i .waitIn k := by
  cases i <;> exact h

theorem StepLegal.of_waitIn {i : Instr} {k : BitVec 4} (h : StepLegal i .waitIn k) : StepLegal i .write k := by
  cases i <;> exact h

/-- INITD alone has a step, and none before its session is begun. -/
theorem StepLegal.eq_zero {i : Instr} {p : Phase} {k : BitVec 4} (h : StepLegal i p k)
    (hi : i ≠ .initd ∨ p = .openBus ∨ p = .preWrite) : k = 0 := by
  unfold StepLegal at h
  split at h <;> simp_all

theorem StepLegal.close {i : Instr} {p : Phase} {k : BitVec 4} (h : StepLegal i p k) : StepLegal i .close k := by
  cases i
  case initd => cases p <;> simp_all [StepLegal]
  all_goals exact h

theorem StepLegal.waitTail {i : Instr} {k : BitVec 4} (h : StepLegal i .close k) : StepLegal i .waitTail k := by
  cases i <;> exact h

theorem StepLegal.resp {i : Instr} {k : BitVec 4} (h : StepLegal i .close k) : StepLegal i .resp k := by
  cases i <;> exact h

theorem initRom_range : ∀ k : BitVec 4, (initRom k).isSome = true → 1 ≤ k.toNat ∧ k.toNat ≤ 10 := by decide

section
variable {i : Instr} {s : State} (h : Settled i true s)
include h

theorem Settled.goto_close (hstep : StepLegal i .close s.seq.step) (hpend : writesCommands i = true ∨ s.pend = .none) :
    InvBusy (s.goto .close) :=
  h.invBusy_to rfl rfl rfl rfl
    ⟨rfl, nofun, hstep, nofun, fun _ => hpend, fun _ => absurd rfl, by simp [State.pendOk, h.abort_eq], nofun⟩

/-- A command is begun at once, or after the delay owed (40_encoder_writer R106). -/
theorem Settled.issueCommand (hi : writesCommands i = true) (hstep : StepLegal i .write s.seq.step) (v : Byte)
    (rs : Bit) : InvBusy (s.issueCommand v rs) := by
  by_cases hpend : s.pend = .none
  · refine h.invBusy_to rfl rfl rfl (by simp [hpend, Phase.inSession]) ?_
    constructor <;> simp [enters, hi, hpend, hstep, State.pendOk, State.subOk]
  · refine h.invBusy_to rfl rfl rfl (by simp [hpend, Phase.inSession]) ?_
    constructor <;> simp [enters, hi, hpend, hstep.waitIn, State.pendOk, State.subOk]

/-- A position inside a command. -/
theorem Settled.atSub (hi : writesCommands i = true) (hph : s.seq.ph = .write) (hstep : StepLegal i .write s.seq.step)
    (hpend : s.pend = .none) (sub : Sub) : InvBusy (s.atSub sub) := by
  refine h.invBusy_to rfl rfl rfl (by simp [State.atSub, hph, Phase.inSession]) ?_
  constructor <;> simp [State.atSub, hph, hi, hstep, hpend, enters, State.pendOk, State.subOk]

theorem Settled.initdStep (hi : i = .initd) (k : BitVec 4) (hclose : s.seq.step.toNat ≤ 10) :
    InvBusy (initdStep k s) := by
  subst hi
  unfold Machine.initdStep
  split
  case h_1 row hrow =>
    have hk := initRom_range k (by rw [hrow]; rfl)
    exact Settled.issueCommand (s := { s with seq := { s.seq with step := k } }) (h.to rfl rfl rfl) rfl hk row.value 0
  case h_2 => exact h.goto_close hclose (.inl rfl)

section
variable (hsub : s.seq.sub = .hiSet)
include hsub

theorem Settled.startCommand (hi : writesCommands i = true) (hstep : StepLegal i .write s.seq.step)
    (hpend : s.pend = .none) : InvBusy s.startCommand :=
  h.invBusy_to rfl rfl rfl rfl
    ⟨hi, nofun, hstep, nofun, nofun, fun _ _ => hsub, by simp [State.pendOk, hpend], nofun⟩

theorem Settled.goto_preWrite (hstep : StepLegal i .preWrite s.seq.step) (hpend : s.pend = .none) :
    InvBusy (s.goto .preWrite) :=
  h.invBusy_to rfl rfl rfl rfl
    ⟨rfl, nofun, hstep, nofun, nofun, fun _ _ => hsub, by simp [State.pendOk, hpend], nofun⟩

theorem Settled.goto_blWrite (hi : setsBacklight i = true) (hstep : StepLegal i .blWrite s.seq.step)
    (hpend : s.pend = .none) : InvBusy (s.goto .blWrite) :=
  h.invBusy_to rfl rfl rfl rfl
    ⟨hi, nofun, hstep, nofun, nofun, fun _ _ => hsub, by simp [State.pendOk, hpend], nofun⟩

theorem Settled.initxLoop (hi : i = .initx) (hstep : s.seq.step = 0) (hpend : s.pend = .none) :
    InvBusy (initxLoop s) := by
  subst hi
  unfold Machine.initxLoop
  split
  case isTrue hidx =>
    exact h.invBusy_to rfl rfl rfl rfl
      ⟨rfl, nofun, hstep, fun _ => hidx, nofun, fun _ _ => hsub, by simp [State.pendOk, hpend], nofun⟩
  case isFalse => exact h.goto_close hstep (.inr hpend)

theorem Settled.putsLoop {buf : Word} {pos len : Byte} (hi : i = .puts buf pos len) (hstep : s.seq.step = 0) :
    InvBusy (putsLoop s) := by
  subst hi
  unfold Machine.putsLoop
  split
  case isTrue => exact h.goto_close hstep (.inl rfl)
  case isFalse =>
    exact h.invBusy_to rfl rfl rfl rfl ⟨rfl, nofun, hstep, nofun, nofun, fun _ _ => hsub, rfl, nofun⟩

/-- The buffer fault stops a PUTS inside its session, after a byte written or after a read that answers UNMAPPED. -/
theorem Settled.raiseBufFault {buf : Word} {pos len : Byte} (hi : i = .puts buf pos len) (hstep : s.seq.step = 0)
    {l : List Event} (hl : bracketOf l = some .inside ∨ bracketOf l = some .dead) :
    InvBusy { s with trace := l }.raiseBufFault := by
  subst hi
  have hlegal : legalPosition (.puts buf pos len) { s with trace := l }.raiseBufFault = true :=
    (legalPosition_iff _ _).mpr ⟨rfl, hstep, nofun, nofun⟩
  refine ⟨⟨h.cfg_wf, h.mem_wf, fun _ => ?_, nofun, fun _ _ => hsub, ?_, ?_, rfl, ?_, ?_, ?_⟩, nofun⟩
  · simpa only [State.raiseBufFault_req0, State.raiseBufFault_req1, h.decode_eq] using hlegal
  · simpa [State.sessionOk, Phase.inSession] using h.session_iff
  · simp [State.askedOk, h.asked_eq]
  · simp [State.abortOk, h.abort_eq]
  · simp [State.faultOk]
  · rcases hl with hl | hl <;> simp [State.traceOk, State.bracketFits, h.abort_eq, hl]

/-- Once the session is begun. -/
theorem Settled.firstOf (hstep : s.seq.step = 0) (hpend : s.pend = .none) : InvBusy (firstOf i s) := by
  cases i with
  | initx => exact h.initxLoop hsub rfl hstep hpend
  | initd => exact h.initdStep rfl 1 (by simp [hstep])
  | putc val pos =>
    change InvBusy (putcFirst s)
    unfold putcFirst
    split <;> exact h.issueCommand rfl hstep _ _
  | puts buf pos len =>
    change InvBusy (putsFirst s)
    unfold putsFirst
    split
    · exact h.putsLoop hsub rfl hstep
    · exact h.issueCommand rfl hstep _ _
  | setbl on | blink count => exact h.goto_blWrite hsub rfl hstep hpend
  | clear => exact h.issueCommand rfl hstep 0x01 0

end

end

section
variable {i : Instr} {s : State} (h : Settled i false s) (hsub : s.seq.sub = .hiSet)
include h hsub

theorem Settled.respondOk (hstep : StepLegal i .resp s.seq.step) (hpend : s.pend = .none) : InvBusy s.respondOk :=
  h.invBusy_to rfl rfl rfl rfl
    ⟨rfl, nofun, hstep, nofun, nofun, fun _ _ => hsub, by simp [State.pendOk, hpend], fun _ => rfl⟩

theorem Settled.doneOf (hstep : StepLegal i .resp s.seq.step) (hpend : s.pend = .none) : InvBusy (doneOf i s) := by
  cases i with
  | initd => exact Settled.respondOk (s := { s with link := .ready }) (h.to rfl rfl rfl) hsub hstep hpend
  | blink count =>
    exact h.invBusy_to rfl rfl rfl rfl
      ⟨rfl, nofun, hstep, nofun, nofun, fun _ _ => hsub, by simp [Machine.doneOf, State.pendOk, hpend], nofun⟩
  | initx | putc | puts | setbl | clear => exact h.respondOk hsub hstep hpend

theorem Settled.afterOf (hstep : StepLegal i .close s.seq.step) (hpend : writesCommands i = true ∨ s.pend = .none) :
    InvBusy (afterOf i s) := by
  unfold Machine.afterOf
  by_cases hi : writesCommands i = true
  · rw [if_pos hi]
    unfold State.finishCommands
    split
    case isTrue hnone => exact h.doneOf hsub hstep.resp hnone
    case isFalse howed =>
      exact h.invBusy_to rfl rfl rfl rfl
        ⟨hi, nofun, hstep.waitTail, nofun, nofun, fun _ _ => hsub, by simp [State.pendOk, howed], nofun⟩
  · rw [if_neg hi]
    exact h.doneOf hsub hstep.resp (hpend.resolve_left hi)

theorem Settled.blinkLoop {count : Byte} (hi : i = .blink count) (hstep : s.seq.step = 0) (hpend : s.pend = .none) :
    InvBusy (blinkLoop s) := by
  subst hi
  unfold Machine.blinkLoop
  split
  · exact h.respondOk hsub hstep hpend
  · exact h.invBusy_to rfl rfl rfl rfl
      ⟨rfl, nofun, hstep, nofun, nofun, fun _ _ => hsub, by simp [State.pendOk, hpend], nofun⟩

theorem Settled.blinkNext {count : Byte} (hi : i = .blink count) (hstep : s.seq.step = 0) (hpend : s.pend = .none) :
    InvBusy (blinkNext s) := by
  unfold Machine.blinkNext
  split
  · subst hi
    exact h.invBusy_to rfl rfl rfl rfl
      ⟨rfl, nofun, hstep, nofun, nofun, fun _ _ => hsub, by simp [State.pendOk, hpend], nofun⟩
  · exact Settled.blinkLoop (s := { s with seq := { s.seq with cnt := s.seq.cnt - 1 } }) (h.to rfl rfl rfl) hsub hi hstep
      hpend

end

/-! ### A byte of a command, and what ends it -/

theorem writesCommands_of_commandOf {i : Instr} {s : State} (h : (commandOf i s).isSome = true) :
    writesCommands i = true := by
  cases i <;> simp_all [commandOf, writesCommands]

/-- The characters of a PUTS and the INITD steps come to their end. -/
theorem Settled.nextOf {i : Instr} {s : State} (h : Settled i true s) (hsub : s.seq.sub = .hiSet)
    (hi : writesCommands i = true) (hstep : StepLegal i .write s.seq.step) : InvBusy (nextOf i s) := by
  cases i with
  | initd => exact h.initdStep rfl _ hstep.2
  | putc val pos =>
    change InvBusy (putcNext s)
    unfold putcNext
    split
    · exact h.issueCommand rfl hstep _ _
    · exact h.goto_close hstep (.inl rfl)
  | puts buf pos len =>
    change InvBusy (putsNext s)
    unfold putsNext
    split
    · exact h.putsLoop hsub rfl hstep
    · split
      · exact h.raiseBufFault hsub rfl hstep (.inl h.bracket_eq)
      · exact Settled.putsLoop (s := { s with seq := { s.seq with idx := s.seq.idx + 1 } }) (h.to rfl rfl rfl) hsub rfl
          hstep
  | clear => exact h.goto_close hstep (.inl rfl)
  | initx | setbl | blink => cases hi

/-- After a byte the command goes on, or ends and the request with it (40_encoder_writer R105). -/
theorem Settled.afterByte {i : Instr} {s : State} (h : Settled i true s) (hph : s.seq.ph = .write)
    (hstep : StepLegal i .write s.seq.step) (hpend : s.pend = .none) (hi : writesCommands i = true) (mode : Mode)
    (cls : DelayClass) : InvBusy (s.afterByte mode fun u => Machine.nextOf i { u with pend := cls }) := by
  rw [State.afterByte_eq]
  split
  · exact Settled.nextOf (s := { s.atSub .hiSet with pend := cls }) (h.to rfl rfl rfl) rfl hi hstep
  · exact h.atSub hi hph hstep hpend _

/-- The event of a call: an open, or the write of a byte. -/
theorem State.callEvent_cases {s : State} {a : Answer} {e : Event} (h : s.callEvent a = some e) :
    (s.seq.ph = .openBus ∧ e = .opened s.cfg.devAddr a) ∨
      (s.seq.ph ≠ .openBus ∧ s.seq.ph.inSession = true ∧ ∃ b kind, e = .wrote b kind a) := by
  unfold State.callEvent at h
  cases hph : s.seq.ph <;> simp only [hph] at h
  case openBus => exact .inl ⟨rfl, (Option.some.inj h).symm⟩
  case preWrite | write | blWrite => exact .inr ⟨nofun, rfl, _, _, (Option.some.inj h).symm⟩
  case raw =>
    obtain ⟨b, -, he⟩ := Option.map_eq_some_iff.mp h
    exact .inr ⟨nofun, rfl, b, _, he.symm⟩
  all_goals cases h

/-! ### What the invariant says of a busy block -/

section
variable {s : State} (h : Inv s)
include h

theorem Inv.decode_eq (hbusy : s.seq.ph ≠ .idle) : ∃ i, decode s.req0 s.req1 = .ok i := by
  obtain ⟨-, -, hpos, -⟩ := h
  have hlegal := hpos hbusy
  split at hlegal
  · next i hdecode => exact ⟨i, hdecode⟩
  · cases hlegal

theorem Inv.abort_eq_zero (hclose : s.seq.ph ≠ .close) (hresp : s.seq.ph ≠ .resp) : s.seq.abort = 0 := by
  obtain ⟨-, -, -, -, -, -, -, -, habort, -⟩ := h
  by_contra hne
  have hone : s.seq.abort = 1 := by bv_omega
  simp [State.abortOk, hone, hclose, hresp] at habort

theorem Inv.fault_ne (hfaulted : s.seq.ph ≠ .faulted) : s.fault ≠ 1 := by
  obtain ⟨-, -, -, -, -, -, -, -, -, hfault, -⟩ := h
  exact fun hone => hfaulted (hfault.mp hone)

theorem Inv.bracket_eq (habort : s.seq.abort = 0) (hfaulted : s.seq.ph ≠ .faulted) :
    bracketOf s.trace = some (.ofSession s.seq.ph.inSession) := by
  obtain ⟨-, -, -, -, -, -, -, -, -, -, htrace⟩ := h
  exact (State.traceOk_of_live habort hfaulted).mp htrace

/-- In the phases that call, a block is in good order, has no delay to wait, and stands at `SEQ.SUB` 0 but in a command. -/
theorem Inv.calling (hcalls : s.seq.ph.calls = true) : s.seq.ph ≠ .idle ∧ s.seq.ph ≠ .faulted ∧ s.seq.abort = 0 ∧
    s.pend = .none ∧ (s.seq.ph ≠ .write → s.seq.sub = .hiSet) := by
  obtain ⟨hidle, hclose, hresp, hfaulted⟩ := Phase.of_calls hcalls
  have habort : s.seq.abort = 0 := h.abort_eq_zero hclose hresp
  obtain ⟨-, -, -, -, hsub, -, -, hpend, -⟩ := h
  refine ⟨hidle, hfaulted, habort, ?_, fun hwrite => hsub hwrite hclose⟩
  cases hp : s.seq.ph <;> simp_all [Phase.calls, State.pendOk]

/-- A call has its session open, whether it is an open or is made inside one. -/
theorem Inv.session_afterCall (hcalls : s.seq.ph.calls = true) (t : Tape Answer) (e : Event) :
    (s.afterCall t e).session = 1 := by
  obtain ⟨-, -, -, -, -, hsession, -⟩ := h
  rw [State.afterCall_eq]
  by_cases hopen : s.seq.ph = .openBus
  · by_cases hasked : s.seq.asked = 1
    · exact (if_neg fun hfresh => hfresh.2 hasked).trans (hsession.mpr (.inr ⟨hopen, hasked⟩))
    · exact if_pos ⟨hopen, hasked⟩
  · have hin : s.seq.ph.inSession = true := by
      cases hp : s.seq.ph <;> simp_all [Phase.calls, Phase.inSession]
    exact (if_neg fun hfresh => hopen hfresh.1).trans (hsession.mpr (.inl hin))

section
variable {i : Instr} (hdecode : decode s.req0 s.req1 = .ok i) (hbusy : s.seq.ph ≠ .idle)
include hdecode hbusy

theorem Inv.legal : enters i s.seq.ph = true ∧ StepLegal i s.seq.ph s.seq.step ∧
    (s.seq.ph = .raw → s.seq.idx.toNat < s.cfg.expanderInitSeq.length) ∧
    (s.seq.ph = .close → writesCommands i = true ∨ s.pend = .none) := by
  obtain ⟨-, -, hpos, -⟩ := h
  have hlegal := hpos hbusy
  rw [hdecode] at hlegal
  exact (legalPosition_iff i s).mp hlegal

theorem Inv.meaningful : Meaningful i s := by
  obtain ⟨henters, hstep, hraw, -⟩ := h.legal hdecode hbusy
  refine ⟨henters, hraw, fun hph => ?_⟩
  rw [hph] at henters hstep
  cases i with
  | initd =>
    obtain ⟨row, hrow, -⟩ := initRom_mode s.seq.step hstep.1 hstep.2
    simp [commandOf, hrow]
  | putc | puts | clear => rfl
  | initx | setbl | blink => cases henters

end

variable {i : Instr} (hdecode : decode s.req0 s.req1 = .ok i)
include hdecode

/-- Where no call is outstanding a block in good order is settled. -/
theorem Inv.settled (hcalls : s.seq.ph.calls = false) (hfaulted : s.seq.ph ≠ .faulted) (habort : s.seq.abort = 0) :
    Settled i s.seq.ph.inSession s := by
  have hbracket := h.bracket_eq habort hfaulted
  have hfault := h.fault_ne hfaulted
  obtain ⟨hcfg, hmem, -, -, -, hsession, hasked, -⟩ := h
  refine ⟨hcfg, hmem, hdecode, ?_, ?_, habort, hfault, hbracket⟩
  · have hopen : s.seq.ph ≠ .openBus := fun hph => by simp [hph, Phase.calls] at hcalls
    simpa [State.sessionOk, hopen] using hsession
  · by_contra hne
    have hone : s.seq.asked = 1 := by bv_omega
    simp [hasked hone] at hcalls

variable (hcalls : s.seq.ph.calls = true)
include hcalls

/-- A call answered OK leaves a block in good order inside its session. -/
theorem Inv.settled_afterCall {e : Event} (he : s.callEvent .ok = some e) (t : Tape Answer) :
    Settled i true (s.afterCall t e) := by
  obtain ⟨-, hfaulted, habort, -, -⟩ := h.calling hcalls
  have hbracket := h.bracket_eq habort hfaulted
  have hfault := h.fault_ne hfaulted
  have hsession := h.session_afterCall hcalls t e
  have hnext : (Bracket.ofSession s.seq.ph.inSession).next e = some (.ofSession true) := by
    rcases State.callEvent_cases he with ⟨hph, rfl⟩ | ⟨-, hin, b, kind, rfl⟩
    · rw [hph]
      rfl
    · rw [hin]
      rfl
  obtain ⟨hcfg, hmem, -⟩ := h
  rw [State.afterCall_eq] at hsession ⊢
  exact ⟨hcfg, hmem, hdecode, iff_of_true hsession rfl, rfl, habort, hfault, bracketOf_snoc hbracket hnext⟩

/-- A call answered OK. -/
theorem Inv.contOf {e : Event} (he : s.callEvent .ok = some e) (t : Tape Answer) :
    InvBusy (contOf i s.seq.ph (s.afterCall t e)) := by
  have hsettled := h.settled_afterCall hdecode hcalls he t
  obtain ⟨hbusy, -, -, hpend, hsub⟩ := h.calling hcalls
  obtain ⟨henters, hstep, -, -⟩ := h.legal hdecode hbusy
  obtain ⟨-, -, hcommand⟩ := h.meaningful hdecode hbusy
  have hpend' := (s.afterCall_pend t e).trans hpend
  generalize hu : s.afterCall t e = u at hsettled hpend'
  have hseq : u.seq = { s.seq with asked := 0 } := hu ▸ s.afterCall_seq t e
  have hustep : u.seq.step = s.seq.step := by rw [hseq]
  have husub (hwrite : s.seq.ph ≠ .write) : u.seq.sub = .hiSet := by rw [hseq]; exact hsub hwrite
  cases hph : s.seq.ph <;> simp only [hph, Phase.calls, Bool.false_eq_true] at hcalls <;>
    rw [hph] at henters hstep husub hcommand
  case openBus =>
    have hzero : u.seq.step = 0 := hustep.trans (hstep.eq_zero (.inr (.inl rfl)))
    have hpre : StepLegal i .preWrite u.seq.step := by rw [hzero]; cases i <;> rfl
    unfold Machine.contOf
    dsimp only
    split
    · exact hsettled.goto_preWrite (husub nofun) hpre hpend'
    · exact hsettled.firstOf (husub nofun) hzero hpend'
  case preWrite => exact hsettled.firstOf (husub nofun) (hustep.trans (hstep.eq_zero (.inr (.inr rfl)))) hpend'
  case write =>
    have hcmd : commandOf i u = commandOf i s := commandOf_congr hustep
    obtain ⟨⟨mode, cls⟩, hsome⟩ := Option.isSome_iff_exists.mp (hcommand rfl)
    simp only [Machine.contOf, hcmd, hsome]
    exact hsettled.afterByte (by rw [hseq]; exact hph) (hustep ▸ hstep) hpend' henters mode cls
  case raw =>
    cases i with
    | initx =>
      exact Settled.initxLoop (s := { u with seq := { u.seq with idx := u.seq.idx + 1 } }) (hsettled.to rfl rfl rfl)
        (husub nofun) rfl (hustep.trans hstep) hpend'
    | initd | putc | puts | setbl | blink | clear => cases henters
  case blWrite => exact hsettled.goto_close (hustep ▸ hstep.close) (.inr hpend')

/-- A call answered ERR: the abort is on its way, and its session is still to be closed (60_exceptions R224). -/
theorem Inv.raiseBusError {e : Event} (he : s.callEvent .err = some e) (t : Tape Answer) :
    InvBusy ((s.afterCall t e).raiseBusError s.seq.ph.stage) := by
  obtain ⟨hbusy, hfaulted, habort, -, -⟩ := h.calling hcalls
  obtain ⟨-, hstep, -, -⟩ := h.legal hdecode hbusy
  have hbracket := h.bracket_eq habort hfaulted
  have hfault := h.fault_ne hfaulted
  have hsession := h.session_afterCall hcalls t e
  have hfailed : (Bracket.ofSession s.seq.ph.inSession).next e = some (.failed s.seq.ph.stage) := by
    rcases State.callEvent_cases he with ⟨hph, rfl⟩ | ⟨hopen, hin, b, kind, rfl⟩
    · rw [hph]
      rfl
    · rw [hin, Phase.stage_of_ne_openBus hopen]
      rfl
  have hlegal : legalPosition i ((s.afterCall t e).raiseBusError s.seq.ph.stage) = true :=
    (legalPosition_iff _ _).mpr ⟨rfl, by simpa using hstep.close, nofun, fun _ => .inr rfl⟩
  have htrace := bracketOf_snoc hbracket hfailed
  obtain ⟨hcfg, hmem, -⟩ := h
  rw [State.afterCall_eq] at hlegal hsession ⊢
  refine ⟨⟨hcfg, hmem, fun _ => ?_, nofun, fun _ => absurd rfl, ?_, nofun, rfl, ?_, ?_, ?_⟩, nofun⟩
  · simpa [hdecode] using hlegal
  · exact iff_of_true hsession (.inl rfl)
  · simp [State.abortOk, s.seq.ph.stage_ne_none]
  · exact iff_of_false hfault nofun
  · simp [State.traceOk, State.bracketFits, htrace]

omit hdecode in
/-- A call not answered: the block stays in its phase. -/
theorem Inv.call : Inv s.call := by
  obtain ⟨hbusy, hfaulted, habort, hpend, hsub⟩ := h.calling hcalls
  obtain ⟨-, hclose, hresp, -⟩ := Phase.of_calls hcalls
  have hsession := h.session_afterCall hcalls ⟨[], none⟩ .closed
  have hbracket := h.bracket_eq habort hfaulted
  have hfault := h.fault_ne hfaulted
  obtain ⟨i, hdecode⟩ := h.decode_eq hbusy
  have hlegal : legalPosition i s.call = true := by
    rw [legalPosition_iff, State.call_eq]
    exact h.legal hdecode hbusy
  obtain ⟨hcfg, hmem, -, -, -, -, -, hpendOk, -⟩ := h
  rw [State.afterCall_eq] at hsession
  rw [State.call_eq] at hlegal ⊢
  refine ⟨hcfg, hmem, fun _ => ?_, fun hph => absurd hph hbusy, fun hwrite _ => hsub hwrite, iff_of_true hsession ?_,
    fun _ => hcalls, hpendOk, ?_, iff_of_false hfault hfaulted, ?_⟩
  · simpa [hdecode] using hlegal
  · cases hph : s.seq.ph <;> simp_all [Phase.calls, Phase.inSession]
  · simp [State.abortOk, habort, hresp]
  · exact (State.traceOk_of_live (s := { s with seq := { s.seq with asked := 1 } }) habort hfaulted).mpr hbracket

end

/-! ### The other primitives -/

/-- A state where the sequencer stops: the request has responded, has faulted, or waits for an agent that has not
answered. -/
def State.Stopped (s : State) : Prop := s.seq.ph = .idle ∨ s.seq.ph = .faulted ∨ s.waiting = true

/-- A primitive that has a meaning, and leaves the invariant behind: of a busy block where the sequencer goes on. -/
def Move.Good : Move → Prop
  | .go t => InvBusy t
  | .halt t => Inv t ∧ t.Stopped
  | .refused _ => False

section
variable {i : Instr} {s : State}

theorem Settled.afterWait {inside : Bool} (h : Settled i inside s) (late : Nat) (t : Tape Nat) :
    Settled i inside (s.afterWait late t) :=
  ⟨h.cfg_wf, h.mem_wf, h.decode_eq, h.session_iff, h.asked_eq, h.abort_eq, h.fault_ne,
    bracketOf_snoc h.bracket_eq (by cases inside <;> rfl)⟩

theorem Settled.endSession (h : Settled i true s) : Settled i false s.endSession :=
  ⟨h.cfg_wf, h.mem_wf, h.decode_eq, by simp, h.asked_eq, h.abort_eq, h.fault_ne, bracketOf_snoc h.bracket_eq rfl⟩

theorem Settled.hostEdits {inside : Bool} (h : Settled i inside s) : Settled i inside s.hostEdits := by
  have hmem := State.hostEdits_wf h.mem_wf
  rcases s.hostEdits_cases with heq | ⟨es, rest, -, heq⟩
  · rwa [heq]
  · rw [heq] at hmem ⊢
    exact ⟨h.cfg_wf, hmem, h.decode_eq, h.session_iff, h.asked_eq, h.abort_eq, h.fault_ne, h.bracket_eq⟩

theorem State.hostEdits_seq (s : State) : s.hostEdits.seq = s.seq := by
  rcases s.hostEdits_cases with h | ⟨es, rest, -, h⟩ <;> rw [h]

section
variable (h : Inv s) (hdecode : decode s.req0 s.req1 = .ok i)
include h hdecode

/-- A wait that has ended. -/
theorem Inv.resumeOf (hwaits : s.seq.ph.waits = true) (late : Nat) (t : Tape Nat) :
    InvBusy (resumeOf i s.seq.ph (s.afterWait late t)) := by
  obtain ⟨hbusy, hclose, hresp, hfaulted, hwrite, hcalls⟩ := Phase.of_waits hwaits
  obtain ⟨henters, hstep, -, -⟩ := h.legal hdecode hbusy
  have hsettled := (h.settled hdecode hcalls hfaulted (h.abort_eq_zero hclose hresp)).afterWait late t
  obtain ⟨-, -, -, -, hsubOk, -, -, hpend, -⟩ := h
  have hsub : (s.afterWait late t).seq.sub = .hiSet := hsubOk hwrite hclose
  cases hph : s.seq.ph <;> simp only [hph, Phase.waits, Bool.false_eq_true] at hwaits <;>
    rw [hph] at henters hstep hsettled
  case waitIn =>
    exact Settled.startCommand (s := { s.afterWait late t with pend := .none }) (hsettled.to rfl rfl rfl) hsub henters
      hstep.of_waitIn rfl
  case waitTail =>
    exact Settled.doneOf (s := { s.afterWait late t with pend := .none }) (hsettled.to rfl rfl rfl) hsub
      hstep.close.resp rfl
  case blWait =>
    cases i with
    | blink count =>
      have hnone : s.pend = .none := by simpa [State.pendOk, hph] using hpend
      exact hsettled.blinkNext hsub rfl hstep hnone
    | initx | initd | putc | puts | setbl | clear => cases henters

/-- A byte of a PUTS that has been read. -/
theorem Inv.putsByte (hph : s.seq.ph = .read) :
    (putsByte (Memory.read s.hostEdits.mem (bufferAddr s.bufOf s.seq.idx).toNat) s.afterRead).Good := by
  have hsettled := h.settled hdecode (by simp [hph, Phase.calls]) (by simp [hph])
    (h.abort_eq_zero (by simp [hph]) (by simp [hph]))
  obtain ⟨henters, hstep, -, -⟩ := h.legal hdecode (by simp [hph])
  obtain ⟨-, -, -, -, hsub, -⟩ := h
  have hsub' : s.hostEdits.seq.sub = .hiSet := by
    rw [State.hostEdits_seq]
    exact hsub (by simp [hph]) (by simp [hph])
  rw [hph] at hsettled henters hstep
  cases i with
  | puts buf pos len =>
    have hedited : Settled (.puts buf pos len) true s.hostEdits := hsettled.hostEdits
    have hstep' : s.hostEdits.seq.step = 0 := by rwa [State.hostEdits_seq]
    unfold State.afterRead
    cases Memory.read s.hostEdits.mem (bufferAddr s.bufOf s.seq.idx).toNat with
    | none =>
      have hdead : bracketOf (s.hostEdits.trace ++ [.readAt (bufferAddr s.bufOf s.seq.idx) none]) = some .dead :=
        bracketOf_snoc hedited.bracket_eq rfl
      exact ⟨(hedited.raiseBufFault hsub' rfl hstep' (.inr hdead)).inv, .inr (.inl rfl)⟩
    | some b =>
      have hread : Settled (.puts buf pos len) true (s.hostEdits.log (.readAt (bufferAddr s.bufOf s.seq.idx) (some b))) :=
        ⟨hedited.cfg_wf, hedited.mem_wf, hedited.decode_eq, hedited.session_iff, hedited.asked_eq, hedited.abort_eq,
          hedited.fault_ne, bracketOf_snoc hedited.bracket_eq rfl⟩
      unfold Machine.putsByte
      dsimp only
      split
      · exact hread.goto_close hstep' (.inl rfl)
      · exact hread.issueCommand rfl hstep' b 1
  | initx | initd | putc | setbl | blink | clear => cases henters

/-- A session in good order that has been closed. -/
theorem Inv.afterOf (hph : s.seq.ph = .close) (habort : s.seq.abort = 0) : InvBusy (afterOf i s.endSession) := by
  have hsettled := h.settled hdecode (by simp [hph, Phase.calls]) (by simp [hph]) habort
  obtain ⟨-, hstep, -, hpend⟩ := h.legal hdecode (by simp [hph])
  rw [hph] at hsettled hstep
  exact hsettled.endSession.afterOf rfl hstep (hpend hph)

/-- An abort whose session has been closed: its response is still to come (60_exceptions R224). -/
theorem Inv.abortClosed (hph : s.seq.ph = .close) (habort : s.seq.abort = 1) : InvBusy s.endSession.abortClosed := by
  obtain ⟨-, hstep, -, -⟩ := h.legal hdecode (by simp [hph])
  have hlegal : legalPosition i s.endSession.abortClosed = true :=
    (legalPosition_iff _ _).mpr ⟨rfl, (hph ▸ hstep).resp, nofun, nofun⟩
  obtain ⟨hcfg, hmem, -, -, -, -, hasked, hpend, haborting, hfault, htrace⟩ := h
  have hstage : s.errStage ≠ .none := by
    simp only [State.abortOk, habort, if_true] at haborting
    exact haborting.1
  have hfailed : bracketOf s.trace = some (.failed s.errStage) := by
    simpa [State.traceOk, State.bracketFits, habort, hph, Option.any_eq_true] using htrace
  have hclosed : bracketOf (s.trace ++ [.closed]) = some (.closedFailed s.errStage) := bracketOf_snoc hfailed rfl
  refine ⟨⟨hcfg, hmem, fun _ => ?_, nofun, fun _ _ => rfl, ?_, ?_, ?_, ?_, ?_, ?_⟩, nofun⟩
  · simpa [hdecode] using hlegal
  · simp [State.sessionOk, Phase.inSession]
  · simpa [State.askedOk, hph, Phase.calls] using hasked
  · simpa [State.pendOk, hph, habort] using hpend
  · simp [State.abortOk, habort, hstage]
  · simpa [State.faultOk, hph] using hfault
  · simp [State.traceOk, State.bracketFits, habort, hclosed]

omit hdecode in
/-- The response, after an abort as after success: the block is IDLE. -/
theorem Inv.afterResponse (hph : s.seq.ph = .resp) :
    Inv { s.log (.responded s.status) with seq := s.seq.afterResponse } := by
  obtain ⟨hcfg, hmem, -, -, hsub, hsession, -, hpend, haborting, hfault, htrace⟩ := h
  have hoff : s.session ≠ 1 := fun hone => by simpa [hph, Phase.inSession] using hsession.mp hone
  have hquiet : s.fault ≠ 1 := fun hone => by simpa [hph] using hfault.mp hone
  have hnone : s.pend = .none := by simpa [State.pendOk, hph] using hpend
  have houtside : bracketOf (s.trace ++ [.responded s.status]) = some .outside := by
    by_cases habort : s.seq.abort = 1
    · simp only [State.abortOk, habort, hph, if_true, reduceCtorEq, true_and, false_or] at haborting
      have hclosed : bracketOf s.trace = some (.closedFailed s.errStage) := by
        simpa [State.traceOk, State.bracketFits, habort, hph, Option.any_eq_true] using htrace
      exact bracketOf_snoc hclosed (if_pos haborting.2)
    · have hzero : s.seq.abort = 0 := by bv_omega
      simp only [State.abortOk, habort, hph, if_false, true_imp_iff] at haborting
      have hout := (State.traceOk_of_live hzero (by simp [hph])).mp htrace
      rw [hph] at hout
      exact bracketOf_snoc hout (by rw [haborting]; rfl)
  exact inv_of_idle (s := { s.log (.responded s.status) with seq := s.seq.afterResponse }) hcfg hmem rfl hnone
    ⟨rfl, rfl, rfl, rfl, rfl⟩ rfl hoff hquiet houtside

end

end

/-! ### Every primitive, every run, every step -/

theorem State.call_waiting {s : State} (hcalls : s.seq.ph.calls = true) (hdraw : s.transport.draw = none) :
    s.call.waiting = true := by
  cases hph : s.seq.ph <;> simp [hph, Phase.calls] at hcalls <;> simp [State.waiting, hph, hdraw]

theorem Inv.waitClass_ne {s : State} (h : Inv s) (hwaits : s.seq.ph.waits = true) : s.waitClass ≠ .none := by
  obtain ⟨-, -, -, -, -, -, -, hpend, -⟩ := h
  cases hph : s.seq.ph <;> simp [hph, Phase.waits] at hwaits <;> simp_all [State.pendOk, State.waitClass]

theorem Inv.good {s : State} (h : Inv s) (hbusy : s.seq.ph ≠ .idle) : (seqTick s).Good := by
  obtain ⟨i, hdecode⟩ := h.decode_eq hbusy
  have hfires := tickOf_fires (h.meaningful hdecode hbusy)
  rw [seqTick_of_decode hdecode]
  generalize tickOf i s = m at hfires
  cases hfires with
  | unanswered hcalls hdraw => exact ⟨h.call hcalls, .inr (.inr (State.call_waiting hcalls hdraw))⟩
  | failed hcalls hdraw he => exact h.raiseBusError hdecode hcalls he _
  | answered hcalls hdraw he => exact h.contOf hdecode hcalls he _
  | unended hwaits howed hdraw =>
    refine ⟨h, .inr (.inr ?_)⟩
    cases hph : s.seq.ph <;> simp [hph, Phase.waits] at hwaits <;> simp [State.waiting, hph, hdraw]
  | ended hwaits howed hdraw => exact h.resumeOf hdecode hwaits _ _
  | notOwed hwaits howed => exact absurd howed (h.waitClass_ne hwaits)
  | read hph => exact h.putsByte hdecode hph
  | closed hph habort => exact h.afterOf hdecode hph habort
  | closedAbort hph habort => exact h.abortClosed hdecode hph habort
  | responded hph => exact ⟨h.afterResponse hph, .inl rfl⟩
  | faulted hph => exact ⟨h, .inr (.inl hph)⟩

/-- The sequencer of a busy block in good order runs on without a refusal. -/
theorem InvBusy.run {n : Nat} {s : State} (h : InvBusy s) : ∃ t, run seqTick n s = .next t ∧ Inv t := by
  induction n generalizing s with
  | zero => exact ⟨s, rfl, h.inv⟩
  | succ n ih =>
    have hgood := h.inv.good h.busy
    cases htick : seqTick s with
    | go t =>
      rw [htick] at hgood
      rw [run_go htick]
      exact ih hgood
    | halt t =>
      rw [htick] at hgood
      exact ⟨t, run_halt htick n, hgood.1⟩
    | refused r =>
      rw [htick] at hgood
      exact hgood.elim

/-- A request's own sequencer is that of its latches. -/
theorem run_tickOf {i : Instr} (n : Nat) {s : State} (hdecode : decode s.req0 s.req1 = .ok i) :
    run (tickOf i) n s = run seqTick n s := by
  induction n generalizing s with
  | zero => rfl
  | succ n ih =>
    have hlatched := (tickOf_ignoresHost i).keeps_latched s
    have hsame := seqTick_of_decode hdecode
    cases htick : tickOf i s with
    | go t =>
      rw [htick] at hlatched hsame
      obtain ⟨h0, h1⟩ := Request.mk.inj hlatched
      rw [run_go htick, run_go hsame]
      exact ih (by rw [h0, h1, hdecode])
    | halt t => rw [run_halt htick, run_halt (hsame.trans htick)]
    | refused r => rw [run_refused htick, run_refused (hsame.trans htick)]

/-- The state in which the sequencer of an accepted request starts. -/
def State.started (i : Instr) (s : State) : State := startOf i (s.accept (encode i))

theorem State.started_latched (i : Instr) (s : State) : (s.started i).latched = (s.latch (encode i)).latched :=
  (startOf_ignoresHost i (alike_self _)).latched_eq

theorem State.decode_started (i : Instr) (s : State) : decode (s.started i).req0 (s.started i).req1 = .ok i := by
  obtain ⟨h0, h1⟩ := Request.mk.inj (s.started_latched i)
  rw [h0, h1, State.latch_req0, State.latch_req1]
  exact decode_encode_of_word1 i _ fun htwo => if_pos htwo

theorem exec_idle {i : Instr} {s : State} (hidle : s.seq.ph = .idle) : exec i s = proceed (s.started i) := by
  rw [exec_eq_serve, serve_idle hidle]
  exact run_tickOf maxPrimitives (s.decode_started i)

/-- An accepted request starts in good order, at its open or, for a BLINK 0, at its response. -/
theorem Inv.started {s : State} (h : Inv s) (hidle : s.seq.ph = .idle) (i : Instr) : InvBusy (s.started i) := by
  have hdecode : decode (s.accept (encode i)).req0 (s.accept (encode i)).req1 = .ok i :=
    decode_encode_of_word1 i _ fun htwo => if_pos htwo
  have hbracket := h.bracket_eq (h.abort_eq_zero (by simp [hidle]) (by simp [hidle])) (by simp [hidle])
  have hfault := h.fault_ne (by simp [hidle])
  obtain ⟨hcfg, hmem, -, -, -, hsession, -, hpendOk, -⟩ := h
  have hoff : s.session ≠ 1 := fun hone => by simpa [hidle, Phase.inSession] using hsession.mp hone
  have hpend : (s.accept (encode i)).pend = .none := by simpa [State.pendOk, hidle] using hpendOk
  rw [hidle] at hbracket
  have haccepted : Settled i false (s.accept (encode i)) :=
    ⟨hcfg, hmem, hdecode, iff_of_false hoff nofun, rfl, rfl, hfault, hbracket⟩
  have hseq : (s.accept (encode i)).seq = Seq.zero := rfl
  unfold State.started
  generalize s.accept (encode i) = u at haccepted hpend hseq
  have hstep : u.seq.step = 0 := by rw [hseq]; rfl
  have hsub : u.seq.sub = .hiSet := by rw [hseq]; rfl
  cases i with
  | blink count =>
    exact Settled.blinkLoop (s := { u with seq := { u.seq with cnt := u.countOf } }) (haccepted.to rfl rfl rfl) hsub rfl
      hstep hpend
  | initx | setbl =>
    exact haccepted.invBusy_to rfl rfl rfl rfl
      ⟨rfl, nofun, hstep, nofun, nofun, fun _ _ => hsub, beq_iff_eq.mpr hpend, nofun⟩
  | putc | puts | clear =>
    exact haccepted.invBusy_to rfl rfl rfl rfl ⟨rfl, nofun, hstep, nofun, nofun, fun _ _ => hsub, rfl, nofun⟩
  | initd => exact haccepted.invBusy_to rfl rfl rfl rfl ⟨rfl, nofun, rfl, nofun, nofun, fun _ _ => hsub, rfl, nofun⟩

theorem Inv.withQueue {s : State} (h : Inv s) (q : List Request) : Inv (s.withQueue q) := h

/-- The answer to an illegal word stands outside any session. -/
theorem Inv.rejectIllegal {s : State} (h : Inv s) (hidle : s.seq.ph = .idle) (r : Request) : Inv (s.rejectIllegal r) := by
  have hbracket := h.bracket_eq (h.abort_eq_zero (by simp [hidle]) (by simp [hidle])) (by simp [hidle])
  have hfault := h.fault_ne (by simp [hidle])
  obtain ⟨hcfg, hmem, -, hown, hsub, hsession, -⟩ := h
  obtain ⟨hpend, hzero⟩ := hown hidle
  have hoff : s.session ≠ 1 := fun hone => by simpa [hidle, Phase.inSession] using hsession.mp hone
  rw [hidle] at hbracket
  exact inv_of_idle (s := s.rejectIllegal r) hcfg hmem hidle hpend hzero (hsub (by simp [hidle]) (by simp [hidle])) hoff
    hfault (bracketOf_snoc hbracket rfl)

/-- Settles O36: an IDLE block by `Inv.started` and `Inv.rejectIllegal`, and every run by `InvBusy.run`. -/
theorem stepKeepsInvariant : Obligations.StepKeepsInvariant := by
  intro s t h hstep
  rcases step_next_cases hstep with ⟨-, -, rfl⟩ | ⟨r, q, hidle, -, ⟨e, -, rfl⟩ | ⟨i, -, hexec⟩⟩ | ⟨hbusy, -, hrun⟩
  · exact h
  · exact (h.withQueue q).rejectIllegal hidle r
  · rw [exec_idle (s := s.withQueue q) hidle] at hexec
    obtain ⟨u, hu, hinv⟩ := ((h.withQueue q).started hidle i).run (n := maxPrimitives)
    obtain rfl : u = t := Host.Outcome.next.inj (hu.symm.trans hexec)
    exact hinv
  · obtain ⟨u, hu, hinv⟩ := (InvBusy.mk h hbusy).run (n := maxPrimitives)
    obtain rfl : u = t := Host.Outcome.next.inj (hu.symm.trans hrun)
    exact hinv

/-- Settles O38: where the sequencer runs at all, `InvBusy.run` gives its next state. -/
theorem invariantStatesAreNeverRefused : Obligations.InvariantStatesAreNeverRefused := by
  intro s h r hrefused
  by_cases hfaulted : s.seq.ph = .faulted
  · rw [step_faulted hfaulted] at hrefused
    cases hrefused
  by_cases hidle : s.seq.ph = .idle
  · rcases hqueue : s.host.queue with _ | ⟨req, q⟩
    · rw [step_of_nothing_presented hidle hqueue] at hrefused
      cases hrefused
    rcases hdecode : decode req.w0 req.w1 with e | i
    · rw [step_of_illegal hidle hqueue ((decode_error_iff _ _).mp ⟨e, hdecode⟩)] at hrefused
      cases hrefused
    · rw [step_of_legal hidle hqueue hdecode, exec_idle (s := s.withQueue q) hidle] at hrefused
      obtain ⟨u, hu, -⟩ := ((h.withQueue q).started hidle i).run (n := maxPrimitives)
      cases hu.symm.trans hrefused
  · rw [step_busy hidle hfaulted] at hrefused
    obtain ⟨u, hu, -⟩ := (InvBusy.mk h hidle).run (n := maxPrimitives)
    cases hu.symm.trans hrefused

theorem inv_constructed {c : Config} (hc : c.wf) : Inv (State.constructed c) :=
  inv_of_idle (s := State.constructed c) hc ⟨.nil, nofun⟩ rfl rfl ⟨rfl, rfl, rfl, rfl, rfl⟩ rfl nofun nofun rfl

/-- Settles O37: the default layout is well formed, and a constructed block is IDLE with an empty trace. -/
theorem resetMeetsInvariant : Obligations.ResetMeetsInvariant :=
  ⟨inv_constructed (by decide), fun _ => inv_constructed⟩

end Sys2Proof.Machine
end

section
/-! PROOFS. A request comes to its stop (spec 60_exceptions R220): an upper bound of the primitives still to come, which
every primitive lowers, whatever the agents answer, and which is far below the bound of a step (log entry 28). -/

namespace Sys2Proof.Machine

open Sys2Proof

/-! ### How many primitives are still to come, at most -/

/-- The writes from a position of a command to its end. -/
def Sub.left : Sub → Nat
  | .hiSet => 6
  | .hiEh => 5
  | .hiEl => 4
  | .loSet => 3
  | .loEh => 2
  | .loEl => 1

/-- The characters a PUTS can still read before its search is exhausted. -/
def charsLeft (s : State) : Nat := 2 ^ 32 - s.seq.idx.toNat

/-- The primitives of the sessions of a BLINK after the one it is in, five for each half of a repetition. -/
def laterSessions (i : Instr) (s : State) : Nat :=
  match i with
  | .blink _ => 5 * (2 * s.seq.cnt.toNat - s.seq.half.toNat - 1)
  | .initx | .initd | .putc _ _ | .puts _ _ _ | .setbl _ | .clear => 0

/-- The primitives inside a session after the command being written. -/
def laterCommands (i : Instr) (s : State) : Nat :=
  match i with
  | .initd => 7 * (10 - s.seq.step.toNat)
  | .putc _ _ => if s.seq.rs = 0 then 7 else 0
  | .puts _ _ _ => if s.seq.rs = 0 then 8 * charsLeft s else 8 * (charsLeft s - 1)
  | .initx | .setbl _ | .blink _ | .clear => 0

/-- The primitives of a session between its begin and its close, and those of the sessions after it. -/
def sessionBody (i : Instr) (s : State) : Nat :=
  match i with
  | .initx => s.cfg.expanderInitSeq.length - s.seq.idx.toNat
  | .initd => 70
  | .putc _ _ => 14
  | .puts _ _ _ => 8 * charsLeft s + 7
  | .setbl _ => 1
  | .blink _ => 1 + laterSessions i s
  | .clear => 7

/-- A bound of the primitives a request performs from a state on, up to its stop. -/
def budget (i : Instr) (s : State) : Nat :=
  match s.seq.ph with
  | .idle | .faulted => 0
  | .resp => 1
  | .waitTail => 2
  | .blWait => 2 + laterSessions i s
  | .close => 3 + laterSessions i s
  | .blWrite => 4 + laterSessions i s
  | .raw => 3 + (s.cfg.expanderInitSeq.length - s.seq.idx.toNat)
  | .read => 3 + 8 * charsLeft s
  | .write => 3 + laterCommands i s + s.seq.sub.left
  | .waitIn => 10 + laterCommands i s
  | .preWrite => 4 + sessionBody i s
  | .openBus => 5 + sessionBody i s

/-- The loops of PUTS and BLINK have not reached their ends: in count mode another byte is due, and another repetition. -/
def InLoop (i : Instr) (s : State) : Prop :=
  match i with
  | .puts _ _ _ => s.lenOf ≠ 0 → s.seq.idx.toNat < s.lenOf.toNat
  | .blink _ => s.seq.cnt ≠ 0
  | .initx | .initd | .putc _ _ | .setbl _ | .clear => True

/-- The phases of a request in which its loop goes on. -/
def loops (i : Instr) : Phase → Bool
  | .openBus | .preWrite | .write | .waitIn | .read | .raw | .blWrite | .blWait => true
  | .close => !writesCommands i
  | .idle | .waitTail | .resp | .faulted => false

/-- At most `n` primitives are to come, and the loop of the request is under way where its phase needs it. -/
structure Within (i : Instr) (n : Nat) (s : State) : Prop where
  budget_le : budget i s ≤ n
  in_loop : loops i s.seq.ph = true → InLoop i s

theorem Sub.left_pos (sub : Sub) : 1 ≤ sub.left ∧ sub.left ≤ 6 := by cases sub <;> decide

theorem charsLeft_pos (s : State) : 1 ≤ charsLeft s := by
  have := s.seq.idx.isLt
  unfold charsLeft
  omega

/-! ### Where a request goes next -/

section
variable {i : Instr} {s : State}

theorem within_issueCommand (hloop : InLoop i s) (v : Byte) (rs : Bit) :
    Within i (10 + laterCommands i { s with seq := { s.seq with rs := rs } }) (s.issueCommand v rs) := by
  have hsame : laterCommands i (s.issueCommand v rs) = laterCommands i { s with seq := { s.seq with rs := rs } } := by
    cases i <;> rfl
  have hloop' : InLoop i (s.issueCommand v rs) := by cases i <;> exact hloop
  refine ⟨?_, fun _ => hloop'⟩
  unfold budget
  rw [hsame]
  by_cases hpend : s.pend = .none
  · have hph : (s.issueCommand v rs).seq.ph = .write := by simp [hpend]
    have hleft : (s.issueCommand v rs).seq.sub.left = 6 := rfl
    rw [hph]
    dsimp only
    omega
  · have hph : (s.issueCommand v rs).seq.ph = .waitIn := by simp [hpend]
    rw [hph]

theorem within_goto_close (hi : writesCommands i = true) : Within i 3 (s.goto .close) := by
  have hlast : laterSessions i (s.goto .close) = 0 := by cases i <;> simp_all [laterSessions, writesCommands]
  exact ⟨Nat.le_of_eq (congrArg (3 + ·) hlast), fun h => by simp [loops, hi] at h⟩

theorem within_goto_blWrite (hloop : InLoop i s) : Within i (4 + laterSessions i s) (s.goto .blWrite) := by
  have hsame : laterSessions i (s.goto .blWrite) = laterSessions i s := by cases i <;> rfl
  exact ⟨Nat.le_of_eq (congrArg (4 + ·) hsame), fun _ => by cases i <;> exact hloop⟩

theorem within_putsLoop {buf : Word} {pos len : Byte} (hloop : s.lenOf ≠ 0 → s.seq.idx.toNat ≤ s.lenOf.toNat) :
    Within (.puts buf pos len) (3 + 8 * charsLeft s) (putsLoop s) := by
  unfold putsLoop
  split
  case isTrue => exact ⟨by simp [budget, laterSessions], nofun⟩
  case isFalse hmore =>
    refine ⟨Nat.le_refl _, fun _ hlen => ?_⟩
    change s.lenOf ≠ 0 at hlen
    have hne : s.seq.idx.toNat ≠ s.lenOf.toNat := fun heq => by
      refine hmore ⟨hlen, BitVec.eq_of_toNat_eq ?_⟩
      rw [heq, BitVec.toNat_setWidth]
      have := s.lenOf.isLt
      omega
    exact Nat.lt_of_le_of_ne (hloop hlen) hne

theorem within_initxLoop : Within .initx (3 + (s.cfg.expanderInitSeq.length - s.seq.idx.toNat)) (initxLoop s) := by
  unfold initxLoop
  split
  · exact ⟨Nat.le_refl _, fun _ => trivial⟩
  · exact ⟨Nat.le_add_right 3 _, fun _ => trivial⟩

theorem within_initdStep (k : BitVec 4) : Within .initd (10 + 7 * (10 - k.toNat)) (initdStep k s) := by
  unfold initdStep
  split
  · next row hrow =>
    exact within_issueCommand (i := .initd) (s := { s with seq := { s.seq with step := k } }) trivial row.value 0
  · refine ⟨?_, fun _ => trivial⟩
    change 3 ≤ _
    omega

theorem Within.mono {m n : Nat} (h : Within i m s) (hmn : m ≤ n) : Within i n s := ⟨h.budget_le.trans hmn, h.in_loop⟩

theorem within_firstOf (hloop : InLoop i s) : Within i (3 + sessionBody i s) (firstOf i s) := by
  cases i with
  | initx => exact within_initxLoop
  | initd => exact within_initdStep 1
  | putc val pos =>
    change Within _ _ (putcFirst s)
    unfold putcFirst
    split
    · exact (within_issueCommand hloop _ 1).mono (by simp [laterCommands, sessionBody])
    · exact within_issueCommand hloop _ 0
  | puts buf pos len =>
    change Within _ _ (putsFirst s)
    unfold putsFirst
    split
    · exact (within_putsLoop fun hlen => (hloop hlen).le).mono (by simp only [sessionBody]; omega)
    · exact (within_issueCommand hloop _ 0).mono (by simp [sessionBody, laterCommands, charsLeft]; omega)
  | setbl on => exact within_goto_blWrite hloop
  | blink count => exact (within_goto_blWrite hloop).mono (by simp only [sessionBody]; omega)
  | clear => exact within_issueCommand hloop 0x01 0

/-- In count mode the last index is not reached, and in terminator mode the search stops there. -/
theorem within_putsNext {buf : Word} {pos len : Byte} (hloop : InLoop (.puts buf pos len) s) :
    Within (.puts buf pos len) (3 + laterCommands (.puts buf pos len) s) (putsNext s) := by
  unfold putsNext
  split
  case isTrue hrs =>
    exact (within_putsLoop fun hlen => (hloop hlen).le).mono (by simp [laterCommands, hrs])
  case isFalse hrs =>
    split
    case isTrue => exact ⟨Nat.zero_le _, nofun⟩
    case isFalse hnot =>
      have hlast : s.seq.idx.toNat + 1 < 2 ^ 32 := by
        have hidx := s.seq.idx.isLt
        by_cases hlen : s.lenOf = 0
        · have hne : s.seq.idx.toNat ≠ 2 ^ 32 - 1 := fun heq =>
            hnot (by simp [State.searchExhausted, hlen, BitVec.eq_of_toNat_eq (y := 0xFFFFFFFF#32) heq])
          omega
        · have hlt := hloop hlen
          have := s.lenOf.isLt
          omega
      have hidx : (s.seq.idx + 1).toNat = s.seq.idx.toNat + 1 := by
        rw [BitVec.toNat_add]
        exact Nat.mod_eq_of_lt hlast
      refine (within_putsLoop (s := { s with seq := { s.seq with idx := s.seq.idx + 1 } }) fun hlen => ?_).mono ?_
      · exact hidx ▸ hloop hlen
      · simp only [laterCommands, charsLeft, hrs, if_false, hidx]
        omega

theorem within_nextOf (hi : writesCommands i = true) (hloop : InLoop i s) (hstep : StepLegal i .write s.seq.step) :
    Within i (3 + laterCommands i s) (nextOf i s) := by
  cases i with
  | initd =>
    obtain ⟨-, h10⟩ : 1 ≤ s.seq.step.toNat ∧ s.seq.step.toNat ≤ 10 := hstep
    change Within _ _ (initdNext s)
    unfold initdNext
    by_cases hlast : s.seq.step = 10
    · have hclose : initdStep (s.seq.step + 1) s = s.goto .close := by rw [hlast]; rfl
      rw [hclose]
      exact (within_goto_close hi).mono (Nat.le_add_right 3 _)
    · have hlt : s.seq.step.toNat ≠ 10 := fun heq => hlast (BitVec.eq_of_toNat_eq heq)
      have hk : (s.seq.step + 1).toNat = s.seq.step.toNat + 1 := by
        rw [BitVec.toNat_add]
        exact Nat.mod_eq_of_lt (by simp; omega)
      refine (within_initdStep (s.seq.step + 1)).mono ?_
      simp only [laterCommands, hk]
      omega
  | putc val pos =>
    change Within _ _ (putcNext s)
    unfold putcNext
    split
    case isTrue hrs => exact (within_issueCommand hloop _ 1).mono (by simp [laterCommands, hrs])
    case isFalse => exact (within_goto_close hi).mono (Nat.le_add_right 3 _)
  | puts buf pos len => exact within_putsNext hloop
  | clear => exact within_goto_close hi
  | initx | setbl | blink => cases hi

theorem within_afterOf (hloop : loops i .close = true → InLoop i s) : Within i (2 + laterSessions i s) (afterOf i s) := by
  cases i with
  | blink count => exact ⟨Nat.le_refl _, fun _ => hloop rfl⟩
  | initx | setbl => exact ⟨Nat.le_add_left 1 _, nofun⟩
  | initd | putc | puts | clear =>
    change Within _ _ (State.finishCommands _ s)
    unfold State.finishCommands
    split
    · exact ⟨Nat.le_add_left 1 _, nofun⟩
    · exact ⟨Nat.le_refl 2, nofun⟩

theorem within_blinkLoop {count : Byte} :
    Within (.blink count) (1 + 5 * (2 * s.seq.cnt.toNat)) (blinkLoop s) := by
  unfold blinkLoop
  split
  case isTrue => exact ⟨Nat.le_add_right 1 _, nofun⟩
  case isFalse hmore =>
    have hpos : s.seq.cnt.toNat ≠ 0 := fun h => hmore (BitVec.eq_of_toNat_eq h)
    refine ⟨?_, fun _ => hmore⟩
    change 5 + (1 + 5 * (2 * s.seq.cnt.toNat - 0 - 1)) ≤ _
    omega

/-- Of a BLINK there is one session less to come. -/
theorem within_blinkNext {count : Byte} (hloop : s.seq.cnt ≠ 0) :
    Within (.blink count) (1 + laterSessions (.blink count) s) (blinkNext s) := by
  have hpos : s.seq.cnt.toNat ≠ 0 := fun h => hloop (BitVec.eq_of_toNat_eq h)
  unfold blinkNext
  split
  case isTrue hhalf =>
    refine ⟨?_, fun _ => hloop⟩
    change 5 + (1 + 5 * (2 * s.seq.cnt.toNat - 1 - 1)) ≤ 1 + 5 * (2 * s.seq.cnt.toNat - s.seq.half.toNat - 1)
    rw [hhalf]
    simp
    omega
  case isFalse hhalf =>
    have hone : s.seq.half = 1 := by bv_omega
    have hcnt : (s.seq.cnt - 1).toNat = s.seq.cnt.toNat - 1 := by bv_omega
    refine (within_blinkLoop (s := { s with seq := { s.seq with cnt := s.seq.cnt - 1 } })).mono ?_
    simp only [laterSessions, hcnt, hone]
    simp
    omega

end

/-! ### Every primitive lowers the bound -/

theorem Sub.left_following (sub : Sub) {mode : Mode} (h : sub.endsCommand mode = false) :
    sub.following.left < sub.left := by
  revert h
  cases sub <;> cases mode <;> decide

/-- `t` has fewer primitives to come than `s`, and the loop is under way in it where its phase needs it. -/
def Descends (i : Instr) (s t : State) : Prop := ∃ n, Within i n t ∧ n < budget i s

theorem loops_of_calls {i : Instr} {p : Phase} (h : p.calls = true) : loops i p = true := by
  cases p <;> simp_all [Phase.calls, loops]

/-- At a byte the command goes on, or the request does. -/
theorem descends_afterByte {i : Instr} {u : State} {mode : Mode} {cls : DelayClass} (hph : u.seq.ph = .write)
    (hi : writesCommands i = true) (hloop : InLoop i u) (hstep : StepLegal i .write u.seq.step) :
    Descends i u (u.afterByte mode fun v => nextOf i { v with pend := cls }) := by
  unfold Descends budget
  rw [hph, State.afterByte_eq]
  dsimp only
  split
  case isTrue =>
    have hsame : laterCommands i { u.atSub .hiSet with pend := cls } = laterCommands i u := by cases i <;> rfl
    have hloop' : InLoop i { u.atSub .hiSet with pend := cls } := by cases i <;> exact hloop
    have hpos := u.seq.sub.left_pos
    exact ⟨3 + laterCommands i u, hsame ▸ within_nextOf hi hloop' hstep, by omega⟩
  case isFalse hends =>
    have hsame : laterCommands i (u.atSub u.seq.sub.following) = laterCommands i u := by cases i <;> rfl
    have hloop' : InLoop i (u.atSub u.seq.sub.following) := by cases i <;> exact hloop
    have hless := u.seq.sub.left_following (Bool.eq_false_of_not_eq_true hends)
    have hbudget : budget i (u.atSub u.seq.sub.following) = 3 + laterCommands i u + u.seq.sub.following.left := by
      unfold budget
      rw [State.atSub, hph]
      exact congrArg (3 + · + _) hsame
    exact ⟨_, ⟨hbudget.le, fun _ => hloop'⟩, by omega⟩

/-- A call and its answer leave the counters of the sequencer as they are. -/
theorem budget_afterCall (i : Instr) (s : State) (t : Tape Answer) (e : Event) :
    budget i (s.afterCall t e) = budget i s := by
  rw [State.afterCall_eq]
  cases i <;> rfl

section
variable {i : Instr} {s : State} (h : Inv s) (hdecode : decode s.req0 s.req1 = .ok i)
include h hdecode

/-- A call answered OK. -/
theorem Inv.descends_contOf (hcalls : s.seq.ph.calls = true) (hloop : InLoop i s) (t : Tape Answer) (e : Event) :
    Descends i s (Machine.contOf i s.seq.ph (s.afterCall t e)) := by
  have hbusy := (Phase.of_calls hcalls).1
  obtain ⟨henters, hstep, hraw, -⟩ := h.legal hdecode hbusy
  obtain ⟨-, -, hcommand⟩ := h.meaningful hdecode hbusy
  have hlength := h.1.2
  have hloop' : InLoop i (s.afterCall t e) := by
    rw [State.afterCall_eq]
    cases i <;> exact hloop
  have hcmd : commandOf i (s.afterCall t e) = commandOf i s := commandOf_congr (by rw [State.afterCall_seq])
  unfold Descends
  rw [← budget_afterCall i s t e]
  have hseq := s.afterCall_seq t e
  have hcfg := s.afterCall_cfg t e
  generalize s.afterCall t e = u at *
  have huph : u.seq.ph = s.seq.ph := by rw [hseq]
  have hustep : u.seq.step = s.seq.step := by rw [hseq]
  cases hph : s.seq.ph <;> simp only [hph, Phase.calls, Bool.false_eq_true] at hcalls <;>
    rw [hph] at henters hstep hcommand huph <;> dsimp only [Machine.contOf]
  case openBus =>
    have hbudget : budget i u = 5 + sessionBody i u := by rw [budget, huph]
    split
    · have hbody : sessionBody i (u.goto .preWrite) = sessionBody i u := by cases i <;> rfl
      have hpre : Within i (4 + sessionBody i u) (u.goto .preWrite) :=
        ⟨Nat.le_of_eq (congrArg (4 + ·) hbody), fun _ => by cases i <;> exact hloop'⟩
      exact ⟨_, hpre, by omega⟩
    · exact ⟨_, within_firstOf hloop', by omega⟩
  case preWrite =>
    have hbudget : budget i u = 4 + sessionBody i u := by rw [budget, huph]
    exact ⟨_, within_firstOf hloop', by omega⟩
  case write =>
    obtain ⟨⟨mode, cls⟩, hsome⟩ := Option.isSome_iff_exists.mp (hcommand rfl)
    rw [hcmd, hsome]
    exact descends_afterByte huph henters hloop' (hustep ▸ hstep)
  case raw =>
    cases i with
    | initx =>
      have hbudget : budget .initx u = 3 + (u.cfg.expanderInitSeq.length - u.seq.idx.toNat) := by rw [budget, huph]
      have hidx : u.seq.idx.toNat < u.cfg.expanderInitSeq.length := by rw [hcfg, hseq]; exact hraw hph
      have hshort : u.cfg.expanderInitSeq.length ≤ 255 := hcfg ▸ hlength
      have hnext : (u.seq.idx + 1).toNat = u.seq.idx.toNat + 1 := by
        rw [BitVec.toNat_add]
        exact Nat.mod_eq_of_lt (by simp; omega)
      refine ⟨_, within_initxLoop (s := { u with seq := { u.seq with idx := u.seq.idx + 1 } }), ?_⟩
      rw [hbudget]
      dsimp only
      omega
    | initd | putc | puts | setbl | blink | clear => cases henters
  case blWrite =>
    have hbudget : budget i u = 4 + laterSessions i u := by rw [budget, huph]
    have hsame : laterSessions i (u.goto .close) = laterSessions i u := by cases i <;> rfl
    exact ⟨3 + laterSessions i u,
      ⟨Nat.le_of_eq (congrArg (3 + ·) hsame), fun _ => by cases i <;> exact hloop'⟩, by omega⟩

/-- More is to come of a session that calls than its close. -/
theorem Inv.sessions_lt_budget (hcalls : s.seq.ph.calls = true) : 3 + laterSessions i s < budget i s := by
  obtain ⟨henters, -, hraw, -⟩ := h.legal hdecode (Phase.of_calls hcalls).1
  have hbody : laterSessions i s ≤ sessionBody i s := by
    cases i <;> simp [laterSessions, sessionBody]
  have hnone (hi : setsBacklight i = false) : laterSessions i s = 0 := by
    cases i with
    | initx | initd | putc | puts | clear => rfl
    | setbl | blink => cases hi
  have hpos := s.seq.sub.left_pos
  unfold budget
  cases hph : s.seq.ph <;> simp only [hph, Phase.calls, Bool.false_eq_true] at hcalls <;> rw [hph] at henters <;>
    dsimp only
  case openBus | preWrite | blWrite => omega
  case write =>
    have hlast := hnone (by cases i <;> simp_all [enters, writesCommands, setsBacklight])
    omega
  case raw =>
    have hlast := hnone (by cases i <;> simp_all [enters, setsBacklight])
    have hidx := hraw hph
    omega

/-- A wait that has ended. -/
theorem Inv.descends_resumeOf (hwaits : s.seq.ph.waits = true) (hloop : loops i s.seq.ph = true → InLoop i s)
    (late : Nat) (t : Tape Nat) : Descends i s (Machine.resumeOf i s.seq.ph (s.afterWait late t)) := by
  obtain ⟨hbusy, -⟩ := Phase.of_waits hwaits
  obtain ⟨henters, -⟩ := h.legal hdecode hbusy
  unfold Descends budget
  cases hph : s.seq.ph <;> simp only [hph, Phase.waits, Bool.false_eq_true] at hwaits <;>
    rw [hph] at henters hloop <;> dsimp only
  case waitIn =>
    have hbudget : budget i (Machine.resumeOf i .waitIn (s.afterWait late t)) =
        3 + laterCommands i s + s.seq.sub.left := by
      cases i <;> rfl
    have hpos := s.seq.sub.left_pos
    refine ⟨_, ⟨hbudget.le, fun _ => ?_⟩, by omega⟩
    have := hloop rfl
    cases i <;> exact this
  case waitTail =>
    cases i with
    | initd | putc | puts | clear => exact ⟨1, ⟨Nat.le_refl 1, nofun⟩, Nat.lt_succ_self 1⟩
    | initx | setbl | blink => cases henters
  case blWait =>
    cases i with
    | blink count => exact ⟨_, within_blinkNext (s := s.afterWait late t) (hloop rfl),
        Nat.add_lt_add_right Nat.one_lt_two (laterSessions (.blink count) s)⟩
    | initx | initd | putc | puts | setbl | clear => cases henters

/-- A byte of a PUTS that has been read. -/
theorem Inv.descends_putsByte (hph : s.seq.ph = .read) (hloop : InLoop i s) {v : Option Byte} {t : State}
    (hgo : Machine.putsByte v s.afterRead = .go t) : Descends i s t := by
  obtain ⟨henters, -⟩ := h.legal hdecode (by simp [hph])
  rw [hph] at henters
  have hpos := charsLeft_pos s
  cases i with
  | puts buf pos len =>
    have hread : InLoop (.puts buf pos len) s.afterRead := by
      rcases s.hostEdits_cases with heq | ⟨es, rest, -, heq⟩ <;> rw [State.afterRead, heq] <;> exact hloop
    have hchars : charsLeft s.afterRead = charsLeft s := by
      rcases s.hostEdits_cases with heq | ⟨es, rest, -, heq⟩ <;> rw [State.afterRead, heq] <;> rfl
    unfold Descends budget
    rw [hph]
    dsimp only
    cases v with
    | none => cases hgo
    | some b =>
      simp only [Machine.putsByte] at hgo
      split at hgo <;> obtain rfl := Move.go.inj hgo
      · exact ⟨_, within_goto_close rfl, by omega⟩
      · exact ⟨10 + 8 * (charsLeft s.afterRead - 1), within_issueCommand hread b 1, by omega⟩
  | initx | initd | putc | setbl | blink | clear => cases henters

/-- Whatever the agents answer, where the sequencer goes on it has fewer primitives to perform. -/
theorem Inv.descends (hbusy : s.seq.ph ≠ .idle) (hloop : loops i s.seq.ph = true → InLoop i s) {t : State}
    (hgo : seqTick s = .go t) : Descends i s t := by
  have hfires := tickOf_fires (h.meaningful hdecode hbusy)
  rw [← seqTick_of_decode hdecode, hgo] at hfires
  generalize hm : Move.go t = m at hfires
  cases hfires with
  | unanswered | unended | responded | faulted => cases hm
  | @failed tape e hcalls hdraw he =>
    obtain rfl := Move.go.inj hm
    have hl := hloop (loops_of_calls hcalls)
    have hlater : laterSessions i ((s.afterCall tape e).raiseBusError s.seq.ph.stage) = laterSessions i s := by
      rw [State.afterCall_eq]
      cases i <;> rfl
    refine ⟨3 + laterSessions i s, ⟨Nat.le_of_eq (congrArg (3 + ·) hlater), fun _ => ?_⟩,
      h.sessions_lt_budget hdecode hcalls⟩
    rw [State.afterCall_eq]
    cases i <;> exact hl
  | answered hcalls hdraw he =>
    obtain rfl := Move.go.inj hm
    exact h.descends_contOf hdecode hcalls (hloop (loops_of_calls hcalls)) _ _
  | ended hwaits howed hdraw =>
    obtain rfl := Move.go.inj hm
    exact h.descends_resumeOf hdecode hwaits hloop _ _
  | notOwed hwaits howed => exact absurd howed (h.waitClass_ne hwaits)
  | read hph => exact h.descends_putsByte hdecode hph (hloop (by rw [hph]; rfl)) hm.symm
  | closed hph habort =>
    obtain rfl := Move.go.inj hm
    have hbudget : budget i s = 3 + laterSessions i s := by rw [budget, hph]
    have hlater : laterSessions i s.endSession = laterSessions i s := by cases i <;> rfl
    refine ⟨_, within_afterOf fun hl => ?_, by omega⟩
    have := hloop (hph ▸ hl)
    cases i <;> exact this
  | closedAbort hph habort =>
    obtain rfl := Move.go.inj hm
    exact ⟨1, ⟨Nat.le_refl 1, nofun⟩, by rw [budget, hph]; dsimp only; omega⟩

end

/-! ### A request within its bound -/

/-- A busy block in good order that has enough primitives to go stops of itself: its bound does not cut it short. -/
theorem InvBusy.run_stops {i : Instr} {n : Nat} {s : State} (h : InvBusy s) (hdecode : decode s.req0 s.req1 = .ok i)
    (hloop : loops i s.seq.ph = true → InLoop i s) (hn : budget i s < n) :
    ∃ t, Machine.run seqTick n s = .next t ∧ t.Stopped := by
  induction n generalizing s with
  | zero => exact absurd hn (Nat.not_lt_zero _)
  | succ n ih =>
    have hgood := h.inv.good h.busy
    have hlatched := seqTick_ignoresHost.keeps_latched s
    cases htick : seqTick s with
    | go t =>
      obtain ⟨m, hwithin, hless⟩ := h.inv.descends hdecode h.busy hloop htick
      rw [htick] at hgood hlatched
      obtain ⟨h0, h1⟩ := Request.mk.inj hlatched
      rw [run_go htick]
      exact ih hgood (by rw [h0, h1, hdecode]) hwithin.in_loop
        (Nat.lt_of_le_of_lt hwithin.budget_le (Nat.lt_of_lt_of_le hless (Nat.le_of_lt_succ hn)))
    | halt t =>
      rw [htick] at hgood
      exact ⟨t, run_halt htick n, hgood.2⟩
    | refused r =>
      rw [htick] at hgood
      exact hgood.elim

/-- An accepted request starts with its loop under way and far fewer primitives to perform than a step may. -/
theorem within_started {s : State} (h : Inv s) (i : Instr) : Within i (2 ^ 36) (s.started i) := by
  have hlength : (s.accept (encode i)).cfg.expanderInitSeq.length ≤ 255 := h.1.2
  have hseq : (s.accept (encode i)).seq = Seq.zero := rfl
  unfold State.started
  generalize s.accept (encode i) = u at hlength hseq
  cases i with
  | initx =>
    refine ⟨?_, fun _ => trivial⟩
    change 5 + (u.cfg.expanderInitSeq.length - 0) ≤ 2 ^ 36
    omega
  | initd | putc | setbl | clear => exact ⟨by change 5 + _ ≤ 2 ^ 36; simp [sessionBody], fun _ => trivial⟩
  | puts buf pos len =>
    refine ⟨by change 5 + (8 * 2 ^ 32 + 7) ≤ 2 ^ 36; omega, fun _ hlen => ?_⟩
    exact Nat.pos_of_ne_zero fun hzero => hlen (BitVec.eq_of_toNat_eq hzero)
  | blink count =>
    refine (within_blinkLoop (s := { u with seq := { u.seq with cnt := u.countOf } })).mono ?_
    have := u.countOf.isLt
    dsimp only
    omega

/-- Settles O39: the bound of a step, 2^37 primitives, is never reached. -/
theorem requestRespondsFaultsOrWaits : Obligations.RequestRespondsFaultsOrWaits := by
  intro s i h hidle
  have hwithin := within_started h i
  obtain ⟨t, hrun, hstopped⟩ := (h.started hidle i).run_stops (n := maxPrimitives) (s.decode_started i) hwithin.in_loop
    (Nat.lt_of_le_of_lt hwithin.budget_le (by decide))
  exact ⟨t, (exec_idle hidle).trans hrun, hstopped⟩

end Sys2Proof.Machine
end

section
/-! PROOFS. How a request ends that an agent does not serve (spec 60_exceptions R223 to R226, R239): the stall, the abort
of a failed call, the exhausted search; and the one request that calls no agent, `BLINK 0`. -/

namespace Sys2Proof.Machine

open Sys2Proof

/-! ### The operands of the latched request -/

section
variable {i : Instr} {s : State} (hdecode : decode s.req0 s.req1 = .ok i)
include hdecode

theorem req0_of_decode : s.req0 = (encode i).w0 := (encodeOfDecodedWords _ _ _ hdecode).1.symm

theorem opOf_of_decode : s.opOf = opcode i := (opcode_of_decode hdecode).symm

omit hdecode in
theorem lenOf_of_decode {buf : Word} {pos len : Byte} (hdecode : decode s.req0 s.req1 = .ok (.puts buf pos len)) :
    s.lenOf = len := by
  rw [State.lenOf, req0_of_decode hdecode]
  exact fieldA_packWord 4 len pos 0

end

/-! ### Where a request starts -/

/-- Acceptance writes the latches, the write count and the sequencer (60_exceptions R221). -/
theorem State.accept_eq (r : Request) (s : State) :
    ∃ w0 w1, s.accept r = { s with req0 := w0, req1 := w1, errWidx := 0, seq := Seq.zero } := ⟨_, _, rfl⟩

/-- `BL` once a request has been accepted: SETBL and BLINK write it before their session opens (43_backlight_clear R190). -/
def blAtStart (i : Instr) (bl : Bit) : Bit :=
  match i with
  | .setbl on => on
  | .blink _ => 1
  | .initx | .initd | .putc _ _ | .puts _ _ _ | .clear => bl

/-- The repetitions a request is still to perform when it is accepted. -/
def countAtStart : Instr → Byte
  | .blink count => count
  | .initx | .initd | .putc _ _ | .puts _ _ _ | .setbl _ | .clear => 0

theorem countOf_accept_blink (count : Byte) (s : State) : (s.accept (encode (.blink count))).countOf = count :=
  fieldC_packWord 6 0 0 count

theorem onOf_accept_setbl (on : Bit) (s : State) : (s.accept (encode (.setbl on))).onOf = on :=
  fieldOn_packWord_bit 5 0 0 on

theorem blinkStart_eq (u : State) : blinkStart u =
    if u.countOf = 0 then { u with seq := { u.seq with cnt := 0 } }.respondOk
    else { u with bl := 1, seq := { u.seq with ph := .openBus, cnt := u.countOf, half := 0 } } := by
  unfold blinkStart blinkLoop
  dsimp only
  split
  · next hzero => rw [hzero]
  · rfl

/-- Every request but a `BLINK 0` starts at its first `BusOpen`. -/
theorem State.started_eq {i : Instr} (hi : i ≠ .blink 0) (s : State) : s.started i = { s.accept (encode i) with
    bl := blAtStart i s.bl
    pend := if writesCommands i then .none else s.pend
    seq := { Seq.zero with ph := .openBus, cnt := countAtStart i } } := by
  have hseq : (s.accept (encode i)).seq = Seq.zero := rfl
  have hbl : (s.accept (encode i)).bl = s.bl := rfl
  have hpend : (s.accept (encode i)).pend = s.pend := rfl
  have hon (on : Bit) (h : i = .setbl on) : (s.accept (encode i)).onOf = on := h ▸ onOf_accept_setbl on s
  have hcount (n : Byte) (h : i = .blink n) : (s.accept (encode i)).countOf = n := h ▸ countOf_accept_blink n s
  unfold State.started
  generalize s.accept (encode i) = u at *
  rw [← hbl, ← hpend]
  cases i with
  | initx | initd | putc | puts | clear =>
    simp [startOf, initxStart, initdStart, putcStart, putsStart, clearStart, hseq, blAtStart, countAtStart,
      writesCommands, Seq.zero]
  | setbl on => simp [startOf, setblStart, State.backlightStep, hon on rfl, hseq, blAtStart, countAtStart,
      writesCommands, Seq.zero]
  | blink count =>
    have hne : u.countOf ≠ 0 := fun h => hi (congrArg Instr.blink (hcount count rfl ▸ h))
    have hstart := (blinkStart_eq u).trans (if_neg hne)
    simpa [startOf, hcount count rfl, hseq, blAtStart, countAtStart, writesCommands, Seq.zero] using hstart

/-- A `BLINK 0` starts at its response (43_backlight_clear R194). -/
theorem State.started_blinkZero (s : State) : s.started (.blink 0) = { s.accept (encode (.blink 0)) with
    status := .ok
    seq := { Seq.zero with ph := .resp } } := by
  have hcount := countOf_accept_blink 0 s
  have hseq : (s.accept (encode (.blink 0))).seq = Seq.zero := rfl
  unfold State.started
  generalize s.accept (encode (.blink 0)) = u at *
  simp [startOf, blinkStart_eq, hcount, hseq, State.respondOk, Seq.zero]

/-- The request's open has a meaning in whatever state it starts. -/
theorem meaningful_of_openBus {i : Instr} {s : State} (hph : s.seq.ph = .openBus) : Meaningful i s :=
  ⟨by rw [hph]; rfl, by simp [hph], by simp [hph]⟩

theorem seqTick_resp {i : Instr} {s : State} (hdecode : decode s.req0 s.req1 = .ok i) (hph : s.seq.ph = .resp) :
    seqTick s = .halt { s.log (.responded s.status) with seq := s.seq.afterResponse } := by
  rw [seqTick_of_decode hdecode, tickOf_eq_phaseMove, phaseMove, hph]
  rfl

/-- Settles O25: the response is the first primitive. -/
theorem blinkZeroOnlyResponds : Obligations.BlinkZeroOnlyResponds := by
  intro s hidle
  have hdecode := s.decode_started (.blink 0)
  have hstarted := s.started_blinkZero
  have hph : (s.started (.blink 0)).seq.ph = .resp := by rw [hstarted]
  have hone : requestWords (encode (.blink 0)).w0 ≠ 2 := by decide
  have hword : (encode (.blink 0)).w0 = 0x60000000 := by decide
  rw [exec_idle hidle, proceed_of_halt (seqTick_resp hdecode hph), hstarted, State.accept, State.latch, if_neg hone, hword]
  rfl

/-! ### A call that is not answered OK -/

section
variable {i : Instr} {s : State} {m : Move}

theorem Phase.not_waits_of_calls {p : Phase} (h : p.calls = true) : p.waits = false := by
  cases p <;> simp_all [Phase.calls, Phase.waits]

theorem Fires.eq_of_unanswered (h : Fires i s m) (hcalls : s.seq.ph.calls = true) (hdraw : s.transport.draw = none) :
    m = .halt s.call := by
  cases h <;> simp_all [Phase.calls, Phase.not_waits_of_calls]

theorem Fires.eq_of_ok {t : Tape Answer} (h : Fires i s m) (hcalls : s.seq.ph.calls = true)
    (hdraw : s.transport.draw = some (.ok, t)) :
    ∃ e, s.callEvent .ok = some e ∧ m = .go (contOf i s.seq.ph (s.afterCall t e)) := by
  cases h <;> simp_all [Phase.calls, Phase.not_waits_of_calls]

theorem Fires.eq_of_err {t : Tape Answer} (h : Fires i s m) (hcalls : s.seq.ph.calls = true)
    (hdraw : s.transport.draw = some (.err, t)) :
    ∃ e, s.callEvent .err = some e ∧ m = .go ((s.afterCall t e).raiseBusError s.seq.ph.stage) := by
  cases h <;> simp_all [Phase.calls, Phase.not_waits_of_calls]

theorem Fires.eq_of_unended (h : Fires i s m) (hwaits : s.seq.ph.waits = true) (howed : s.waitClass ≠ .none)
    (hdraw : s.timer.draw = none) : m = .halt s := by
  have hcalls := (Phase.of_waits hwaits).2.2.2.2.2
  cases h <;> simp_all [Phase.waits]

end

theorem Inv.seqTick_fires {s : State} (h : Inv s) {i : Instr} (hdecode : decode s.req0 s.req1 = .ok i)
    (hbusy : s.seq.ph ≠ .idle) : Fires i s (seqTick s) := by
  rw [seqTick_of_decode hdecode]
  exact tickOf_fires (h.meaningful hdecode hbusy)

/-- A call already made and not answered is not made again. -/
theorem State.call_call (s : State) : s.call.call = s.call := by
  have hasked : s.call.seq.asked = 1 := by rw [State.call_seq]
  exact State.called_again hasked

theorem step_of_unanswered {s : State} (h : Inv s) (hcalls : s.seq.ph.calls = true) (hdraw : s.transport.draw = none) :
    step s = .next s.call := by
  obtain ⟨hbusy, -, -, hfaulted⟩ := Phase.of_calls hcalls
  obtain ⟨i, hdecode⟩ := h.decode_eq hbusy
  rw [step_busy hbusy hfaulted]
  exact proceed_of_halt ((h.seqTick_fires hdecode hbusy).eq_of_unanswered hcalls hdraw)

theorem step_of_unended {s : State} (h : Inv s) (hwaits : s.seq.ph.waits = true) (hdraw : s.timer.draw = none) :
    step s = .next s := by
  obtain ⟨hbusy, -, -, hfaulted, -⟩ := Phase.of_waits hwaits
  obtain ⟨i, hdecode⟩ := h.decode_eq hbusy
  rw [step_busy hbusy hfaulted]
  exact proceed_of_halt ((h.seqTick_fires hdecode hbusy).eq_of_unended hwaits (h.waitClass_ne hwaits) hdraw)

theorem State.busy_of_ne_idle {s : State} (h : s.seq.ph ≠ .idle) : s.busy = true :=
  Bool.eq_true_of_not_eq_false fun hfree => h (State.busy_eq_false_iff.mp hfree)

/-- Settles O35: the first step makes the call, which the next one does not make again; a wait leaves no mark at all. -/
theorem unansweredCallStallsBlock : Obligations.UnansweredCallStallsBlock := by
  refine ⟨fun s h hcalls hdraw => ?_, fun s h hph hdraw => ?_⟩
  · have hph : s.call.seq.ph = s.seq.ph := by rw [State.call_seq]
    have hagain := step_of_unanswered (h.call hcalls) (hph ▸ hcalls) (s.call_transport ▸ hdraw)
    rw [State.call_call] at hagain
    exact ⟨s.call, step_of_unanswered h hcalls hdraw, hph, State.busy_of_ne_idle (hph ▸ (Phase.of_calls hcalls).1),
      s.call_trace, hagain⟩
  · have hwaits : s.seq.ph.waits = true := by rcases hph with hph | hph | hph <;> rw [hph] <;> rfl
    exact ⟨step_of_unended h hwaits hdraw, State.busy_of_ne_idle (Phase.of_waits hwaits).1⟩

/-! ### The abort of a failed call -/

/-- The block once the failed call `e` of its phase has been recorded, its session closed, and the error answered
(60_exceptions R224). -/
def State.aborted (t : Tape Answer) (e : Event) (s : State) : State := { s with
  session := 0
  pend := .none
  status := s.seq.ph.stage.status
  errOp := s.opOf
  errStage := s.seq.ph.stage
  errStep := s.seq.step
  errWidx := if s.seq.ph = .openBus ∨ s.seq.asked = 1 then s.errWidx else s.errWidx + 1
  link := .indeterminate
  transport := t
  pins := none
  trace := s.trace ++ [e, .closed, .responded s.seq.ph.stage.status]
  seq := s.seq.afterResponse }

theorem seqTick_close_abort {i : Instr} {s : State} (hdecode : decode s.req0 s.req1 = .ok i) (hph : s.seq.ph = .close)
    (habort : s.seq.abort = 1) : seqTick s = .go s.endSession.abortClosed := by
  rw [seqTick_of_decode hdecode, tickOf_eq_phaseMove, phaseMove, hph]
  exact closePhase_abort habort

/-- From a failed call the sequencer goes on to its close, then to its response, and is IDLE. -/
theorem proceed_of_err {i : Instr} {s : State} {t : Tape Answer} (hdecode : decode s.req0 s.req1 = .ok i)
    (hmeaning : Meaningful i s) (hcalls : s.seq.ph.calls = true) (hdraw : s.transport.draw = some (.err, t)) :
    ∃ e, s.callEvent .err = some e ∧ proceed s = .next (s.aborted t e) := by
  obtain ⟨e, he, hgo⟩ := (tickOf_fires hmeaning).eq_of_err hcalls hdraw
  rw [← seqTick_of_decode hdecode, State.afterCall_eq] at hgo
  refine ⟨e, he, ?_⟩
  generalize hu : State.raiseBusError _ _ = u at hgo
  have hlatched : u.req0 = s.req0 ∧ u.req1 = s.req1 := by rw [← hu]; exact ⟨rfl, rfl⟩
  have hdecode' : decode u.req0 u.req1 = .ok i := by rw [hlatched.1, hlatched.2, hdecode]
  have hclose := seqTick_close_abort hdecode' (by rw [← hu]; rfl) (by rw [← hu]; rfl)
  obtain ⟨w, rfl, hrun⟩ := (leads_of_go hgo (leads_of_go hclose (leads_here rfl))).run_eq (n := maxPrimitives) (by decide)
  refine (hrun _ (seqTick_resp (i := i) hdecode' rfl)).trans ?_
  rw [← hu]
  simp [State.aborted, State.raiseBusError, State.endSession, State.abortClosed, State.log, Seq.afterResponse, State.opOf]

theorem Phase.stage_eq (p : Phase) : p.stage = if p = .openBus then .opening else .writing := by
  cases p <;> rfl

theorem Phase.stage_status_eq (p : Phase) :
    p.stage.status = if p = .openBus then .busErrorOpen else .busErrorWrite := by
  cases p <;> rfl

/-- Settles O31: the run is the abort of `proceed_of_err`, whose fields are read off. -/
theorem failedCallAbortsRequest : Obligations.FailedCallAbortsRequest := by
  intro s tape h hcalls hdraw
  obtain ⟨hbusy, -, -, hfaulted⟩ := Phase.of_calls hcalls
  obtain ⟨i, hdecode⟩ := h.decode_eq hbusy
  obtain ⟨e, he, hrun⟩ := proceed_of_err hdecode (h.meaningful hdecode hbusy) hcalls hdraw
  exact ⟨s.aborted tape e, e, (step_busy hbusy hfaulted).trans hrun, he, rfl, s.seq.ph.stage_status_eq, rfl,
    s.seq.ph.stage_eq, rfl, rfl, rfl, rfl, rfl, rfl, rfl, rfl, rfl, rfl, rfl, rfl, rfl, rfl⟩

/-- Settles O32: the request starts at its open, whose failure is the abort of `proceed_of_err`. -/
theorem failedOpenEndsRequest : Obligations.FailedOpenEndsRequest := by
  intro s i tape hidle hi hdraw
  have hdecode := s.decode_started i
  have hop := opOf_of_decode hdecode
  have hstarted := s.started_eq hi
  obtain ⟨w0, w1, haccept⟩ := s.accept_eq (encode i)
  have hrun := exec_idle (i := i) hidle
  rw [haccept] at hstarted
  generalize s.started i = u at *
  have hph : u.seq.ph = .openBus := by rw [hstarted]
  have hudraw : u.transport.draw = some (.err, tape) := by rw [hstarted]; exact hdraw
  obtain ⟨e, he, hproceed⟩ := proceed_of_err hdecode (meaningful_of_openBus hph) (by rw [hph]; rfl) hudraw
  have hevent : e = .opened s.cfg.devAddr .err := by
    rw [State.callEvent, hph, hstarted] at he
    exact (Option.some.inj he).symm
  refine ⟨u.aborted tape e, hrun.trans hproceed, ?_⟩
  subst hstarted hevent
  exact ⟨rfl, rfl, hop, rfl, rfl, rfl, rfl, rfl, rfl, rfl, by cases i <;> rfl, rfl, rfl, rfl, rfl, rfl, rfl⟩

theorem seqTick_faulted {s : State} {buf : Word} {pos len : Byte}
    (hdecode : decode s.req0 s.req1 = .ok (.puts buf pos len)) (hph : s.seq.ph = .faulted) : seqTick s = .halt s := by
  rw [seqTick_of_decode hdecode, tickOf_eq_phaseMove, phaseMove, hph]
  rfl

/-- The last byte of the character at the last index of a search. -/
theorem putsNext_of_searchExhausted {s : State} (hrs : s.seq.rs = 1) (hidx : s.seq.idx = 0xFFFFFFFF) (hlen : s.lenOf = 0) :
    putsNext s = s.raiseBufFault := by
  simp [putsNext, State.searchExhausted, hrs, hidx, hlen]

/-- A byte of a command answered OK: the command goes on, or ends and the request with it (40_encoder_writer R105). -/
theorem contOf_write {i : Instr} {s : State} {mode : Mode} {cls : DelayClass} (hcmd : commandOf i s = some (mode, cls)) :
    contOf i .write s = if s.seq.sub.endsCommand mode then nextOf i { s.atSub .hiSet with pend := cls }
      else s.atSub s.seq.sub.following := by
  rw [contOf, hcmd]
  exact State.afterByte_eq ..

/-- Settles O34: after the last byte of the command the search is exhausted, and the sequencer halts FAULTED. -/
theorem exhaustedSearchFaults : Obligations.ExhaustedSearchFaults := by
  intro s buf pos tape hdecode hph hsub hrs hidx hdraw
  have hmeaning : Meaningful (.puts buf pos 0) s := ⟨by rw [hph]; rfl, by simp [hph], fun _ => rfl⟩
  obtain ⟨e, he, hgo⟩ := (tickOf_fires hmeaning).eq_of_ok (by rw [hph]; rfl) hdraw
  have htrace := s.afterCall_trace tape e
  rw [State.callEvent, hph] at he
  have hdecode' : decode (s.afterCall tape e).req0 (s.afterCall tape e).req1 = .ok (.puts buf pos 0) := by
    rw [State.afterCall_eq]
    exact hdecode
  have hseq := s.afterCall_seq tape e
  rw [← seqTick_of_decode hdecode, hph] at hgo
  generalize s.afterCall tape e = u at *
  have hends : u.seq.sub.endsCommand .nibble = true := by simp [hseq, hsub, Sub.endsCommand]
  have hfault : contOf (.puts buf pos 0) .write u = State.raiseBufFault { u.atSub .hiSet with pend := .std } := by
    rw [contOf_write rfl, if_pos hends]
    exact putsNext_of_searchExhausted (by rw [State.atSub, hseq]; exact hrs) (by rw [State.atSub, hseq]; exact hidx)
      (lenOf_of_decode hdecode')
  rw [hfault] at hgo
  obtain ⟨w, rfl, hrun⟩ := (leads_of_go hgo (leads_here rfl)).run_eq (n := maxPrimitives) (by decide)
  rw [step_busy (by simp [hph]) (by simp [hph])]
  obtain rfl := Option.some.inj he
  exact ⟨_, hrun _ (seqTick_faulted hdecode' rfl), rfl, rfl, _, htrace⟩

end Sys2Proof.Machine
end

section
/-! PROOFS. How a request ends, and what that leaves of `LINK` and the error record (spec 10_state R26, R27, R35): whatever
the agents answer, a request is under way, has succeeded, is aborting or has failed, and each primitive keeps to that. -/

namespace Sys2Proof.Machine

open Sys2Proof

/-! ### A primitive that is not refused -/

theorem meaningful_of_ne_refused {i : Instr} {s : State} (h : tickOf i s ≠ .refused .unreachableSeq) : Meaningful i s := by
  have henters : enters i s.seq.ph = true := by
    by_contra hnot
    exact h (tickOf_refused (Bool.eq_false_of_not_eq_true hnot))
  rw [tickOf_eq_phaseMove, if_pos henters, phaseMove] at h
  refine ⟨henters, fun hph => ?_, fun hph => ?_⟩
  · by_contra hlong
    simp [hph, List.getElem?_eq_none (Nat.le_of_not_lt hlong)] at h
  · by_contra hnone
    simp [hph, Option.not_isSome_iff_eq_none.mp hnone] at h

theorem fires_of_tickOf {i : Instr} {s : State} {m : Move} (h : tickOf i s = m) (hm : m ≠ .refused .unreachableSeq) :
    enters i s.seq.ph = true ∧ Fires i s m := by
  subst h
  have hmeaning := meaningful_of_ne_refused hm
  exact ⟨hmeaning.enters_ph, tickOf_fires hmeaning⟩

/-! ### What a request does next, of what its end depends on -/

/-- `ERR_OP`, `ERR_STAGE` and `ERR_STEP`. -/
def State.errRecord (s : State) : BitVec 4 × ErrStage × BitVec 4 := (s.errOp, s.errStage, s.errStep)

/-- A request in good order goes on to `u`: either it is under way, or it has come to its response, which is OK. -/
structure Onward (i : Instr) (s u : State) : Prop where
  req0_eq : u.req0 = s.req0
  record_eq : u.errRecord = s.errRecord
  abort_eq : u.seq.abort = s.seq.abort
  step_eq : i ≠ .initd → u.seq.step = s.seq.step
  timer_eq : u.timer = s.timer
  pend_eq : writesCommands i = false → u.pend = s.pend
  goes : (u.seq.ph ≠ .resp ∧ u.seq.ph ≠ .idle ∧ u.link = s.link) ∨
    (u.seq.ph = .resp ∧ u.status = .ok ∧ u.link = if i = .initd then .ready else s.link)

section
variable {i : Instr} {s : State}

theorem onward_goto {p : Phase} (hp : p ≠ .resp ∧ p ≠ .idle) : Onward i s (s.goto p) :=
  ⟨rfl, rfl, rfl, fun _ => rfl, rfl, fun _ => rfl, .inl ⟨hp.1, hp.2, rfl⟩⟩

theorem onward_respondOk (hi : i ≠ .initd) : Onward i s s.respondOk :=
  ⟨rfl, rfl, rfl, fun _ => rfl, rfl, fun _ => rfl, .inr ⟨rfl, rfl, (if_neg hi).symm⟩⟩

theorem onward_issueCommand (v : Byte) (rs : Bit) : Onward i s (s.issueCommand v rs) := by
  refine ⟨rfl, rfl, rfl, fun _ => rfl, rfl, fun _ => rfl, .inl ?_⟩
  by_cases hpend : s.pend = .none <;> simp [hpend]

theorem onward_initdStep (k : BitVec 4) : Onward .initd s (initdStep k s) := by
  unfold initdStep
  split
  case h_1 row _ =>
    have hissue := onward_issueCommand (i := .initd) (s := { s with seq := { s.seq with step := k } }) row.value 0
    exact ⟨rfl, rfl, rfl, absurd rfl, rfl, nofun, hissue.goes⟩
  case h_2 => exact onward_goto ⟨nofun, nofun⟩

theorem onward_initxLoop : Onward .initx s (initxLoop s) := by
  unfold initxLoop
  split <;> exact onward_goto ⟨nofun, nofun⟩

theorem onward_putsLoop {buf : Word} {pos len : Byte} : Onward (.puts buf pos len) s (putsLoop s) := by
  unfold putsLoop
  split <;> exact onward_goto ⟨nofun, nofun⟩

theorem onward_backlightStep (on : Bit) : Onward i s (s.backlightStep on) :=
  ⟨rfl, rfl, rfl, fun _ => rfl, rfl, fun _ => rfl, .inl ⟨nofun, nofun, rfl⟩⟩

/-- The position in a command and the counters of the loops are no part of it. -/
theorem Onward.of_counters {u : State} {sub : Sub} {idx : BitVec 32} {cnt : Byte} {half : Bit}
    (h : Onward i { s with seq := { s.seq with sub := sub, idx := idx, cnt := cnt, half := half } } u) : Onward i s u :=
  ⟨h.req0_eq, h.record_eq, h.abort_eq, h.step_eq, h.timer_eq, h.pend_eq, h.goes⟩

theorem onward_blinkLoop {count : Byte} : Onward (.blink count) s (blinkLoop s) := by
  unfold blinkLoop
  split
  · exact onward_respondOk nofun
  · exact (onward_backlightStep 1).of_counters

theorem onward_blinkNext {count : Byte} : Onward (.blink count) s (blinkNext s) := by
  unfold blinkNext
  split
  · exact (onward_backlightStep 0).of_counters
  · exact onward_blinkLoop.of_counters

theorem onward_firstOf : Onward i s (firstOf i s) := by
  cases i with
  | initx => exact onward_initxLoop
  | initd => exact onward_initdStep 1
  | putc val pos =>
    change Onward _ _ (putcFirst s)
    unfold putcFirst
    split <;> exact onward_issueCommand _ _
  | puts buf pos len =>
    change Onward _ _ (putsFirst s)
    unfold putsFirst
    split
    · exact onward_putsLoop
    · exact onward_issueCommand _ 0
  | setbl on | blink count => exact onward_goto ⟨nofun, nofun⟩
  | clear => exact onward_issueCommand 0x01 0

theorem onward_nextOf (hi : writesCommands i = true) : Onward i s (nextOf i s) := by
  cases i with
  | initd => exact onward_initdStep _
  | putc val pos =>
    change Onward _ _ (putcNext s)
    unfold putcNext
    split
    · exact onward_issueCommand _ 1
    · exact onward_goto ⟨nofun, nofun⟩
  | puts buf pos len =>
    change Onward _ _ (putsNext s)
    unfold putsNext
    split
    · exact onward_putsLoop
    · split
      · exact ⟨rfl, rfl, rfl, fun _ => rfl, rfl, fun _ => rfl, .inl ⟨nofun, nofun, rfl⟩⟩
      · exact onward_putsLoop.of_counters
  | clear => exact onward_goto ⟨nofun, nofun⟩
  | initx | setbl | blink => cases hi

theorem onward_doneOf : Onward i s (doneOf i s) := by
  cases i with
  | initd => exact ⟨rfl, rfl, rfl, absurd rfl, rfl, nofun, .inr ⟨rfl, rfl, rfl⟩⟩
  | blink count => exact onward_goto ⟨nofun, nofun⟩
  | initx | putc | puts | setbl | clear => exact onward_respondOk nofun

theorem onward_afterOf : Onward i s (afterOf i s) := by
  unfold afterOf
  split
  · unfold State.finishCommands
    split
    · exact onward_doneOf
    · exact onward_goto ⟨nofun, nofun⟩
  · exact onward_doneOf

/-- A delay that has been waited, or that a command has come to owe. -/
theorem Onward.of_pend {u : State} {d : DelayClass} (h : Onward i { s with pend := d } u) (hi : writesCommands i = true) :
    Onward i s u :=
  ⟨h.req0_eq, h.record_eq, h.abort_eq, h.step_eq, h.timer_eq, fun hnot => absurd (hi.symm.trans hnot) nofun, h.goes⟩

theorem onward_contOf (henters : enters i s.seq.ph = true) (hcalls : s.seq.ph.calls = true) :
    Onward i s (contOf i s.seq.ph s) := by
  cases hph : s.seq.ph <;> simp only [hph, Phase.calls, Bool.false_eq_true] at hcalls <;> rw [hph] at henters <;>
    dsimp only [contOf]
  case openBus =>
    split
    · exact onward_goto ⟨nofun, nofun⟩
    · exact onward_firstOf
  case preWrite => exact onward_firstOf
  case write =>
    split
    · next cls _ =>
      rw [State.afterByte_eq]
      split
      · have h : Onward i { s with pend := cls } (nextOf i { s.atSub .hiSet with pend := cls }) :=
          (onward_nextOf henters).of_counters
        exact h.of_pend henters
      · exact ⟨rfl, rfl, rfl, fun _ => rfl, rfl, fun _ => rfl, .inl (by simp [State.atSub, hph])⟩
    · exact ⟨rfl, rfl, rfl, fun _ => rfl, rfl, fun _ => rfl, .inl (by simp [hph])⟩
  case raw =>
    cases i with
    | initx => exact onward_initxLoop.of_counters
    | initd | putc | puts | setbl | blink | clear => cases henters
  case blWrite => exact onward_goto ⟨nofun, nofun⟩

theorem onward_resumeOf (henters : enters i s.seq.ph = true) (hwaits : s.seq.ph.waits = true) :
    Onward i s (resumeOf i s.seq.ph s) := by
  cases hph : s.seq.ph <;> simp only [hph, Phase.waits, Bool.false_eq_true] at hwaits <;> rw [hph] at henters <;>
    dsimp only [resumeOf]
  case waitIn =>
    exact Onward.of_pend (d := .none) ⟨rfl, rfl, rfl, fun _ => rfl, rfl, fun _ => rfl, .inl ⟨nofun, nofun, rfl⟩⟩ henters
  case waitTail => exact onward_doneOf.of_pend henters
  case blWait =>
    cases i with
    | blink count => exact onward_blinkNext
    | initx | initd | putc | puts | setbl | clear => cases henters

theorem onward_putsByte {v : Option Byte} {t : State} (h : putsByte v s = .go t ∨ putsByte v s = .halt t) :
    Onward i s t := by
  unfold putsByte at h
  split at h
  · obtain rfl : s.raiseBufFault = t := by simpa using h
    exact ⟨rfl, rfl, rfl, fun _ => rfl, rfl, fun _ => rfl, .inl ⟨nofun, nofun, rfl⟩⟩
  · split at h
    · obtain rfl : s.goto .close = t := by simpa using h
      exact onward_goto ⟨nofun, nofun⟩
    · obtain rfl : s.issueCommand _ 1 = t := by simpa using h
      exact onward_issueCommand _ 1

end

/-! ### The course of a request -/

/-- The record a failed request `i` leaves (60_exceptions R224). -/
structure OwnRecord (i : Instr) (u : State) : Prop where
  op_eq : u.errOp = opcode i
  stage_ne : u.errStage ≠ .none
  step_eq : i ≠ .initd → u.errStep = 0

/-- Where a request `i` accepted in `s` stands in `u`. -/
inductive Standing (i : Instr) (s u : State) : Prop where
  | underWay (habort : u.seq.abort = 0) (hph : u.seq.ph ≠ .resp ∧ u.seq.ph ≠ .idle) (hrecord : u.errRecord = s.errRecord)
      (hlink : u.link = s.link)
  | succeeded (habort : u.seq.abort = 0) (hph : u.seq.ph = .resp ∨ u.seq.ph = .idle) (hrecord : u.errRecord = s.errRecord)
      (hlink : u.link = if i = .initd then .ready else s.link) (hstatus : u.status = .ok)
  | aborting (habort : u.seq.abort = 1) (hph : u.seq.ph = .close) (hrecord : OwnRecord i u) (hlink : u.link = s.link)
  | failed (hph : u.seq.ph = .resp ∨ u.seq.ph = .idle) (hrecord : OwnRecord i u) (hlink : u.link = .indeterminate)
      (hstatus : u.status = u.errStage.status)

/-- The request accepted in `s` has come to `u` with what it leaves alone as it was. -/
structure Course (i : Instr) (s u : State) : Prop where
  op_eq : u.opOf = opcode i
  step_eq : i ≠ .initd → u.seq.step = 0
  timer_eq : writesCommands i = false → (∀ n, i ≠ .blink n) → u.timer = s.timer
  pend_kept : writesCommands i = false → u.pend = s.pend ∨ u.pend = .none
  standing : Standing i s u

/-- What a call, a wait, a read or a close leaves of `u` in `w`, as far as the end of the request depends on it. -/
structure Unended (i : Instr) (u w : State) : Prop where
  req0_eq : w.req0 = u.req0
  record_eq : w.errRecord = u.errRecord
  abort_eq : w.seq.abort = u.seq.abort
  step_eq : w.seq.step = u.seq.step
  timer_eq : writesCommands i = false → (∀ n, i ≠ .blink n) → w.timer = u.timer
  pend_eq : w.pend = u.pend
  link_eq : w.link = u.link

theorem unended_call (i : Instr) (u : State) : Unended i u u.call := by
  rw [State.call_eq]
  exact ⟨rfl, rfl, rfl, rfl, fun _ _ => rfl, rfl, rfl⟩

theorem unended_afterCall (i : Instr) (u : State) (t : Tape Answer) (e : Event) : Unended i u (u.afterCall t e) := by
  rw [State.afterCall_eq]
  exact ⟨rfl, rfl, rfl, rfl, fun _ _ => rfl, rfl, rfl⟩

theorem unended_afterRead (i : Instr) (u : State) : Unended i u u.afterRead := by
  unfold State.afterRead
  rcases u.hostEdits_cases with heq | ⟨es, rest, -, heq⟩ <;> rw [heq] <;>
    exact ⟨rfl, rfl, rfl, rfl, fun _ _ => rfl, rfl, rfl⟩

/-- A request that neither writes commands nor blinks enters no phase that waits. -/
theorem unended_afterWait {i : Instr} {u : State} (henters : enters i u.seq.ph = true) (hwaits : u.seq.ph.waits = true)
    (late : Nat) (t : Tape Nat) : Unended i u (u.afterWait late t) := by
  refine ⟨rfl, rfl, rfl, rfl, fun hi hb => ?_, rfl, rfl⟩
  cases hph : u.seq.ph <;> simp only [hph, Phase.waits, Bool.false_eq_true] at hwaits <;> rw [hph] at henters
  case waitIn | waitTail => exact absurd (henters.symm.trans hi) nofun
  case blWait =>
    cases i with
    | blink count => exact absurd rfl (hb count)
    | initx | initd | putc | puts | setbl | clear => cases henters

section
variable {i : Instr} {s u v : State} (h : Course i s u)
include h

theorem Course.underWay (hph : u.seq.ph ≠ .resp ∧ u.seq.ph ≠ .idle) (habort : u.seq.abort = 0 ∨ u.seq.ph ≠ .close) :
    u.seq.abort = 0 ∧ u.errRecord = s.errRecord ∧ u.link = s.link := by
  cases h.standing with
  | underWay hzero _ hrecord hlink => exact ⟨hzero, hrecord, hlink⟩
  | succeeded _ hend => exact absurd hend (not_or.mpr hph)
  | failed hend => exact absurd hend (not_or.mpr hph)
  | aborting hone hclose =>
    rcases habort with hzero | hopen
    · exact absurd (hzero.symm.trans hone) (by decide)
    · exact absurd hclose hopen

/-- A request that is under way goes on, from a state that a primitive has left much as it was. -/
theorem Course.onward {w : State} (hph : u.seq.ph ≠ .resp ∧ u.seq.ph ≠ .idle)
    (habort : u.seq.abort = 0 ∨ u.seq.ph ≠ .close) (hw : Unended i u w) (hon : Onward i w v) : Course i s v := by
  obtain ⟨hzero, hrecord, hlink⟩ := h.underWay hph habort
  refine ⟨?_, fun hi => ?_, fun hi hb => ?_, fun hi => ?_, ?_⟩
  · rw [← h.op_eq, State.opOf, State.opOf, hon.req0_eq, hw.req0_eq]
  · rw [hon.step_eq hi, hw.step_eq, h.step_eq hi]
  · rw [hon.timer_eq, hw.timer_eq hi hb, h.timer_eq hi hb]
  · rw [hon.pend_eq hi, hw.pend_eq]
    exact h.pend_kept hi
  · have hzero' := hon.abort_eq.trans (hw.abort_eq.trans hzero)
    have hrecord' := hon.record_eq.trans (hw.record_eq.trans hrecord)
    have hlink' := hw.link_eq.trans hlink
    rcases hon.goes with ⟨hresp, hidle, hsame⟩ | ⟨hresp, hstatus, hdone⟩
    · exact .underWay hzero' ⟨hresp, hidle⟩ hrecord' (hsame.trans hlink')
    · exact .succeeded hzero' (.inl hresp) hrecord' (hlink' ▸ hdone) hstatus

/-- A call that fails leaves the request's own record behind, and its session to be closed. -/
theorem Course.raiseBusError (hcalls : u.seq.ph.calls = true) (t : Tape Answer) (e : Event) :
    Course i s ((u.afterCall t e).raiseBusError u.seq.ph.stage) := by
  obtain ⟨hidle, hclose, hresp, -⟩ := Phase.of_calls hcalls
  obtain ⟨-, -, hlink⟩ := h.underWay ⟨hresp, hidle⟩ (.inr hclose)
  rw [State.afterCall_eq]
  exact ⟨h.op_eq, h.step_eq, h.timer_eq, fun _ => .inr rfl,
    .aborting rfl rfl ⟨h.op_eq, u.seq.ph.stage_ne_none, h.step_eq⟩ hlink⟩

/-- The rest of an abort (60_exceptions R224). -/
theorem Course.abortClosed (hph : u.seq.ph = .close) (habort : u.seq.abort = 1) : Course i s u.endSession.abortClosed := by
  refine ⟨h.op_eq, h.step_eq, h.timer_eq, h.pend_kept, ?_⟩
  cases h.standing with
  | underWay hzero | succeeded hzero => exact absurd (hzero.symm.trans habort) (by decide)
  | failed hend => simp [hph] at hend
  | aborting _ _ hrecord _ => exact .failed (.inl rfl) ⟨hrecord.op_eq, hrecord.stage_ne, hrecord.step_eq⟩ rfl rfl

/-- The response, after which the block is IDLE. -/
theorem Course.afterResponse (hph : u.seq.ph = .resp) :
    Course i s { u.log (.responded u.status) with seq := u.seq.afterResponse } := by
  refine ⟨h.op_eq, fun _ => rfl, h.timer_eq, h.pend_kept, ?_⟩
  cases h.standing with
  | underWay _ hlive => exact absurd hph hlive.1
  | aborting _ hclose => simp [hph] at hclose
  | succeeded _ _ hrecord hlink hstatus => exact .succeeded rfl (.inr rfl) hrecord hlink hstatus
  | failed _ hrecord hlink hstatus =>
    exact .failed (.inr rfl) ⟨hrecord.op_eq, hrecord.stage_ne, hrecord.step_eq⟩ hlink hstatus

/-- A primitive after which the block stays in its phase. -/
theorem Course.stays (hph : u.seq.ph ≠ .resp ∧ u.seq.ph ≠ .idle) (habort : u.seq.abort = 0 ∨ u.seq.ph ≠ .close)
    (hw : Unended i u v) (hsame : v.seq.ph = u.seq.ph) (htimer : v.timer = u.timer) : Course i s v :=
  h.onward hph habort ⟨rfl, rfl, rfl, rfl, fun _ _ => rfl, rfl, rfl⟩
    ⟨hw.req0_eq, hw.record_eq, hw.abort_eq, fun _ => hw.step_eq, htimer, fun _ => hw.pend_eq,
      .inl ⟨hsame ▸ hph.1, hsame ▸ hph.2, hw.link_eq⟩⟩

/-- Whatever the agents answer, every primitive keeps to the course. -/
theorem Course.of_tickOf (hgo : tickOf i u = .go v ∨ tickOf i u = .halt v) : Course i s v := by
  obtain ⟨m, hm, hmove⟩ : ∃ m, tickOf i u = m ∧ (m = .go v ∨ m = .halt v) := ⟨_, rfl, hgo⟩
  obtain ⟨henters, hfires⟩ := fires_of_tickOf hm (by rcases hmove with rfl | rfl <;> nofun)
  have hbusy := ne_idle_of_enters henters
  cases hfires with
  | unanswered hcalls hdraw =>
    obtain rfl : u.call = v := by simpa using hmove
    obtain ⟨-, hclose, hresp, -⟩ := Phase.of_calls hcalls
    exact h.stays ⟨hresp, hbusy⟩ (.inr hclose) (unended_call i u) (by rw [State.call_seq]) (by rw [State.call_eq])
  | @failed t e hcalls hdraw he =>
    obtain rfl : (u.afterCall t e).raiseBusError u.seq.ph.stage = v := by simpa using hmove
    exact h.raiseBusError hcalls t e
  | @answered t e hcalls hdraw he =>
    obtain rfl : contOf i u.seq.ph (u.afterCall t e) = v := by simpa using hmove
    obtain ⟨-, hclose, hresp, -⟩ := Phase.of_calls hcalls
    have hsame : (u.afterCall t e).seq.ph = u.seq.ph := by rw [State.afterCall_seq]
    have hon := onward_contOf (i := i) (s := u.afterCall t e) (by rwa [hsame]) (by rwa [hsame])
    rw [hsame] at hon
    exact h.onward ⟨hresp, hbusy⟩ (.inr hclose) (unended_afterCall i u t e) hon
  | unended hwaits howed hdraw =>
    obtain rfl : u = v := by simpa using hmove
    exact h
  | @ended late t hwaits howed hdraw =>
    obtain rfl : resumeOf i u.seq.ph (u.afterWait late t) = v := by simpa using hmove
    obtain ⟨-, hclose, hresp, -⟩ := Phase.of_waits hwaits
    exact h.onward ⟨hresp, hbusy⟩ (.inr hclose) (unended_afterWait henters hwaits late t)
      (onward_resumeOf (s := u.afterWait late t) henters hwaits)
  | notOwed hwaits howed =>
    obtain rfl : resumeOf i u.seq.ph u = v := by simpa using hmove
    obtain ⟨-, hclose, hresp, -⟩ := Phase.of_waits hwaits
    exact h.onward ⟨hresp, hbusy⟩ (.inr hclose) ⟨rfl, rfl, rfl, rfl, fun _ _ => rfl, rfl, rfl⟩
      (onward_resumeOf henters hwaits)
  | read hph =>
    exact h.onward ⟨by simp [hph], hbusy⟩ (.inr (by simp [hph])) (unended_afterRead i u) (onward_putsByte hmove)
  | closed hph habort =>
    obtain rfl : afterOf i u.endSession = v := by simpa using hmove
    exact h.onward ⟨by simp [hph], hbusy⟩ (.inl habort) (w := u.endSession)
      ⟨rfl, rfl, rfl, rfl, fun _ _ => rfl, rfl, rfl⟩ onward_afterOf
  | closedAbort hph habort =>
    obtain rfl : u.endSession.abortClosed = v := by simpa using hmove
    exact h.abortClosed hph habort
  | responded hph =>
    obtain rfl : { u.log (.responded u.status) with seq := u.seq.afterResponse } = v := by simpa using hmove
    exact h.afterResponse hph
  | faulted hph =>
    obtain rfl : u = v := by simpa using hmove
    exact h

end

theorem course_started (i : Instr) (s : State) : Course i s (s.started i) := by
  have hop := opOf_of_decode (s.decode_started i)
  obtain ⟨w0, w1, haccept⟩ := s.accept_eq (encode i)
  by_cases hi : i = .blink 0
  · have hstarted : s.started i = _ := hi ▸ s.started_blinkZero
    rw [haccept] at hstarted
    rw [hstarted] at hop ⊢
    exact ⟨hop, fun _ => rfl, fun _ _ => rfl, fun _ => .inl rfl,
      .succeeded rfl (.inl rfl) rfl (if_neg (by rw [hi]; nofun)).symm rfl⟩
  · have hstarted := s.started_eq hi
    rw [haccept] at hstarted
    rw [hstarted] at hop ⊢
    exact ⟨hop, fun _ => rfl, fun _ _ => rfl, fun hw => .inl (by simp [hw]), .underWay rfl ⟨nofun, nofun⟩ rfl rfl⟩

/-- From its acceptance to wherever the block stops. -/
theorem exec_course {i : Instr} {s t : State} (hidle : s.seq.ph = .idle) (h : exec i s = .next t) : Course i s t := by
  rw [exec_eq_serve, serve_idle hidle] at h
  exact run_keeps (Course i s) (fun _ _ hu hgo => hu.of_tickOf (.inl hgo)) (fun _ _ hu hhalt => hu.of_tickOf (.inr hhalt))
    maxPrimitives _ t (course_started i s) h

/-- A request that has responded has succeeded or failed. -/
theorem Course.ended {i : Instr} {s t : State} (h : Course i s t) (hidle : t.seq.ph = .idle) :
    (t.status = .ok ∧ t.errRecord = s.errRecord ∧ t.link = if i = .initd then .ready else s.link) ∨
      (t.status = t.errStage.status ∧ OwnRecord i t ∧ t.link = .indeterminate) := by
  cases h.standing with
  | underWay _ hph => exact absurd hidle hph.2
  | aborting _ hph => simp [hidle] at hph
  | succeeded _ _ hrecord hlink hstatus => exact .inl ⟨hstatus, hrecord, hlink⟩
  | failed _ hrecord hlink hstatus => exact .inr ⟨hstatus, hrecord, hlink⟩

theorem ErrStage.status_of_ne_none {st : ErrStage} (h : st ≠ .none) :
    st.status = .busErrorOpen ∨ st.status = .busErrorWrite := by
  cases st with
  | none => exact absurd rfl h
  | opening => exact .inl rfl
  | writing => exact .inr rfl

theorem OwnRecord.status_ne_ok {i : Instr} {u : State} (h : OwnRecord i u) : u.errStage.status ≠ .ok := by
  rcases ErrStage.status_of_ne_none h.stage_ne with hst | hst <;> rw [hst] <;> nofun

/-- Settles O48: by the two ways a request ends. -/
theorem linkRecordsOutcome : Obligations.LinkRecordsOutcome := by
  intro s t i hidle h hended
  rcases (exec_course hidle h).ended hended with ⟨hok, -, hlink⟩ | ⟨hstatus, hrecord, hlink⟩
  · exact ⟨.inl hok, fun hnot => absurd hok hnot, fun _ => hlink⟩
  · rw [hstatus]
    exact ⟨.inr (ErrStage.status_of_ne_none hrecord.stage_ne), fun _ => hlink, fun hok => absurd hok hrecord.status_ne_ok⟩

/-- Settles O50: by the two ways a request ends. -/
theorem errorRecordOnlyFromAbort : Obligations.ErrorRecordOnlyFromAbort := by
  intro s t i hidle h hended
  rcases (exec_course hidle h).ended hended with ⟨hok, hrecord, -⟩ | ⟨hstatus, hrecord, -⟩
  · exact ⟨fun _ => by simpa [State.errRecord] using hrecord, fun hnot => absurd hok hnot⟩
  · exact ⟨fun hok => absurd (hstatus.symm.trans hok) hrecord.status_ne_ok,
      fun _ => ⟨hrecord.op_eq, hstatus.symm, hrecord.stage_ne, hrecord.step_eq⟩⟩

theorem latch_req1 (i : Instr) (s : State) :
    (s.latch (encode i)).req1 = (match i with | .puts buf _ _ => buf | _ => s.req1) := by
  rw [State.latch_req1, requestWords_encode]
  cases i <;> rfl

/-- Settles O52: `BL` by the walk of an earlier part, the latches and the buffer by theirs, and the rest by the course. -/
theorem requestFrame : Obligations.RequestFrame := by
  intro s t i hidle h
  have hcourse := exec_course hidle h
  obtain ⟨h0, h1⟩ := Request.mk.inj (exec_latched hidle h)
  refine ⟨(exec_records h).cfg_eq, exec_queue hidle h, h0, h1.trans (latch_req1 i s), fun hputs => ?_, fun hi => ?_,
    fun hi => hcourse.pend_kept ?_, fun hsetbl hblink => (exec_carriesBacklight hsetbl hblink h).1, fun hi => ?_⟩
  · obtain ⟨hsame, hhost⟩ := exec_sameBuffer hputs hidle h
    exact ⟨hsame.fault_eq, hsame.mem_eq, hhost⟩
  · rcases hi with rfl | ⟨on, rfl⟩ <;> exact hcourse.timer_eq rfl (fun _ => nofun)
  · rcases hi with rfl | ⟨on, rfl⟩ | ⟨n, rfl⟩ <;> rfl
  · cases hcourse.standing with
    | underWay _ _ _ hlink | aborting _ _ _ hlink => exact .inl hlink
    | succeeded _ _ _ hlink => exact .inl (hlink.trans (if_neg hi))
    | failed _ _ hlink => exact .inr hlink

end Sys2Proof.Machine
end

section
/-! PROOFS. No request reads `LINK` (spec 10_state R27): a primitive does the same, but for `LINK`, in the state with
`LINK` forgotten. -/

namespace Sys2Proof.Machine

open Sys2Proof

/-- The state with `LINK` forgotten. -/
def State.unlinked (s : State) : State := { s with link := .unknown }

/-- What the update `f` does, but for `LINK`, is no matter of `LINK`. -/
def IgnoresLink (f : State → State) : Prop := ∀ s, (f s.unlinked).unlinked = (f s).unlinked

/-- A move with `LINK` forgotten. -/
def Move.unlinked : Move → Move
  | .go s => .go s.unlinked
  | .halt s => .halt s.unlinked
  | .refused r => .refused r

/-! ### Where a request goes next -/

theorem IgnoresLink.ite {c : State → Prop} {_ : DecidablePred c} {f g : State → State} (hc : ∀ s, c s.unlinked ↔ c s)
    (hf : IgnoresLink f) (hg : IgnoresLink g) : IgnoresLink fun s => if c s then f s else g s := fun s => by
  by_cases h : c s
  · simpa only [if_pos h, if_pos ((hc s).mpr h)] using hf s
  · simpa only [if_neg h, if_neg (mt (hc s).mp h)] using hg s

theorem IgnoresLink.comp {f g : State → State} (hf : IgnoresLink f) (hg : IgnoresLink g) :
    IgnoresLink fun s => f (g s) := fun s => by
  rw [← hf (g s.unlinked), hg s, hf]

theorem ignoresLink_goto (p : Phase) : IgnoresLink fun s => s.goto p := fun _ => rfl

theorem ignoresLink_respondOk : IgnoresLink State.respondOk := fun _ => rfl

theorem ignoresLink_issueCommand (v : State → Byte) (hv : ∀ s, v s.unlinked = v s) (rs : Bit) :
    IgnoresLink fun s => s.issueCommand (v s) rs := fun s => by
  beta_reduce
  rw [hv]
  rfl

theorem ignoresLink_setSeq (f : Seq → Seq) : IgnoresLink fun s => { s with seq := f s.seq } := fun _ => rfl

theorem ignoresLink_setPend (d : DelayClass) : IgnoresLink fun s => { s with pend := d } := fun _ => rfl

theorem ignoresLink_initdStep (k : BitVec 4) : IgnoresLink (initdStep k) := fun s => by
  unfold initdStep
  cases initRom k <;> rfl

theorem ignoresLink_initxLoop : IgnoresLink initxLoop :=
  .ite (fun _ => Iff.rfl) (ignoresLink_goto .raw) (ignoresLink_goto .close)

theorem ignoresLink_putsLoop : IgnoresLink putsLoop :=
  .ite (fun _ => Iff.rfl) (ignoresLink_goto .close) (ignoresLink_goto .read)

theorem ignoresLink_firstOf (i : Instr) : IgnoresLink (firstOf i) := by
  have hcursor : IgnoresLink fun s => s.issueCommand (cursorSet s.posOf) 0 := ignoresLink_issueCommand _ (fun _ => rfl) 0
  cases i with
  | initx => exact ignoresLink_initxLoop
  | initd => exact ignoresLink_initdStep 1
  | putc => exact .ite (fun _ => Iff.rfl) (ignoresLink_issueCommand State.valOf (fun _ => rfl) 1) hcursor
  | puts => exact .ite (fun _ => Iff.rfl) ignoresLink_putsLoop hcursor
  | setbl | blink => exact ignoresLink_goto .blWrite
  | clear => exact ignoresLink_issueCommand (fun _ => 0x01) (fun _ => rfl) 0

theorem ignoresLink_nextOf (i : Instr) : IgnoresLink (nextOf i) := by
  cases i with
  | initd => exact fun s => ignoresLink_initdStep (s.seq.step + 1) s
  | putc =>
    exact .ite (fun _ => Iff.rfl) (ignoresLink_issueCommand State.valOf (fun _ => rfl) 1) (ignoresLink_goto .close)
  | puts =>
    exact .ite (fun _ => Iff.rfl) ignoresLink_putsLoop (.ite (fun _ => Iff.rfl) (fun _ => rfl)
      (ignoresLink_putsLoop.comp (ignoresLink_setSeq fun q => { q with idx := q.idx + 1 })))
  | clear => exact ignoresLink_goto .close
  | initx | setbl | blink => exact fun _ => rfl

theorem ignoresLink_doneOf (i : Instr) : IgnoresLink (doneOf i) := by
  cases i <;> exact fun _ => rfl

theorem ignoresLink_afterOf (i : Instr) : IgnoresLink (afterOf i) := by
  unfold afterOf
  split
  · exact .ite (fun _ => Iff.rfl) (ignoresLink_doneOf i) (ignoresLink_goto .waitTail)
  · exact ignoresLink_doneOf i

theorem ignoresLink_blinkLoop : IgnoresLink blinkLoop :=
  .ite (fun _ => Iff.rfl) ignoresLink_respondOk fun _ => rfl

theorem ignoresLink_blinkNext : IgnoresLink blinkNext :=
  .ite (fun _ => Iff.rfl) (fun _ => rfl)
    (ignoresLink_blinkLoop.comp (ignoresLink_setSeq fun q => { q with cnt := q.cnt - 1 }))

theorem ignoresLink_resumeOf (i : Instr) (p : Phase) : IgnoresLink (resumeOf i p) := by
  cases p with
  | waitTail => exact (ignoresLink_doneOf i).comp (ignoresLink_setPend .none)
  | blWait => exact ignoresLink_blinkNext
  | _ => exact fun _ => rfl

theorem ignoresLink_contOf (i : Instr) (p : Phase) : IgnoresLink (contOf i p) := by
  cases p with
  | openBus => exact .ite (fun _ => Iff.rfl) (ignoresLink_goto .preWrite) (ignoresLink_firstOf i)
  | preWrite => exact ignoresLink_firstOf i
  | write =>
    intro s
    have hsame : commandOf i s.unlinked = commandOf i s := commandOf_congr rfl
    rcases hcmd : commandOf i s with _ | ⟨mode, cls⟩
    · simp only [contOf, hsame, hcmd]
      rfl
    · rw [contOf_write hcmd, contOf_write (hsame.trans hcmd)]
      exact IgnoresLink.ite (c := fun s => s.seq.sub.endsCommand mode = true) (fun _ => Iff.rfl)
        ((ignoresLink_nextOf i).comp (g := fun s => { s.atSub .hiSet with pend := cls }) fun _ => rfl)
        (fun _ => rfl) s
  | raw => exact ignoresLink_initxLoop.comp (ignoresLink_setSeq fun q => { q with idx := q.idx + 1 })
  | blWrite => exact ignoresLink_goto .close
  | _ => exact fun _ => rfl

theorem putsByte_unlinked (v : Option Byte) (s : State) : (putsByte v s.unlinked).unlinked = (putsByte v s).unlinked := by
  have hlen : s.unlinked.lenOf = s.lenOf := rfl
  unfold putsByte
  rw [hlen]
  cases v with
  | none => rfl
  | some b => dsimp only; split <;> rfl

/-! ### A primitive, a run -/

/-- What a primitive can do is fixed by its phase and the agents' draws. -/
theorem Fires.functional {i : Instr} {s : State} {m m' : Move} (h : Fires i s m) (h' : Fires i s m') : m' = m := by
  cases h with
  | unanswered hcalls hdraw => exact h'.eq_of_unanswered hcalls hdraw
  | failed hcalls hdraw he =>
    obtain ⟨e', he', rfl⟩ := h'.eq_of_err hcalls hdraw
    obtain rfl := Option.some.inj (he.symm.trans he')
    rfl
  | answered hcalls hdraw he =>
    obtain ⟨e', he', rfl⟩ := h'.eq_of_ok hcalls hdraw
    obtain rfl := Option.some.inj (he.symm.trans he')
    rfl
  | unended hwaits howed hdraw => exact h'.eq_of_unended hwaits howed hdraw
  | ended hwaits howed hdraw =>
    have hcalls := (Phase.of_waits hwaits).2.2.2.2.2
    cases h' <;> simp_all [Phase.waits]
  | notOwed hwaits howed =>
    have hcalls := (Phase.of_waits hwaits).2.2.2.2.2
    cases h' <;> simp_all [Phase.waits]
  | read hph | closed hph | closedAbort hph | responded hph | faulted hph =>
    cases h' <;> simp_all [Phase.calls, Phase.waits]

/-- In the state with `LINK` forgotten a primitive does the same, with `LINK` forgotten. -/
theorem Fires.unlinked {i : Instr} {s : State} {m : Move} (h : Fires i s m) :
    ∃ m', Fires i s.unlinked m' ∧ m'.unlinked = m.unlinked := by
  cases h with
  | unanswered hcalls hdraw => exact ⟨_, .unanswered hcalls hdraw, by rw [State.call_eq, State.call_eq]; rfl⟩
  | @failed t e hcalls hdraw he =>
    exact ⟨_, .failed (s := s.unlinked) hcalls hdraw he, by rw [State.afterCall_eq, State.afterCall_eq]; rfl⟩
  | @answered t e hcalls hdraw he =>
    have hcall : (s.unlinked.afterCall t e) = (s.afterCall t e).unlinked := by
      rw [State.afterCall_eq, State.afterCall_eq]; rfl
    refine ⟨_, .answered (s := s.unlinked) hcalls hdraw he, ?_⟩
    rw [hcall]
    exact congrArg Move.go (ignoresLink_contOf i s.seq.ph _)
  | unended hwaits howed hdraw => exact ⟨_, .unended (s := s.unlinked) hwaits howed hdraw, rfl⟩
  | @ended late t hwaits howed hdraw =>
    exact ⟨_, .ended (s := s.unlinked) hwaits howed hdraw,
      congrArg Move.go (ignoresLink_resumeOf i s.seq.ph (s.afterWait late t))⟩
  | notOwed hwaits howed =>
    exact ⟨_, .notOwed (s := s.unlinked) hwaits howed, congrArg Move.go (ignoresLink_resumeOf i s.seq.ph s)⟩
  | read hph =>
    have hedits : s.unlinked.hostEdits = s.hostEdits.unlinked := by
      rcases hhost : s.host.edits with _ | ⟨es, rest⟩
      · rw [State.hostEdits_of_none hhost, State.hostEdits_of_none (s := s.unlinked) hhost]
      · simp only [State.hostEdits, State.unlinked, hhost]
    have hread := Fires.read (i := i) (s := s.unlinked) hph
    have hafter : s.unlinked.afterRead = s.afterRead.unlinked := by
      rw [State.afterRead, hedits]
      rfl
    rw [hedits, hafter] at hread
    exact ⟨_, hread, putsByte_unlinked _ _⟩
  | closed hph habort =>
    exact ⟨_, .closed (s := s.unlinked) hph habort, congrArg Move.go (ignoresLink_afterOf i s.endSession)⟩
  | closedAbort hph habort => exact ⟨_, .closedAbort (s := s.unlinked) hph habort, rfl⟩
  | responded hph => exact ⟨_, .responded (s := s.unlinked) hph, rfl⟩
  | faulted hph => exact ⟨_, .faulted (s := s.unlinked) hph, rfl⟩

/-- What has a meaning is a matter of the sequencer's position and of the configuration. -/
theorem Meaningful.congr {i : Instr} {s u : State} (h : Meaningful i s)
    (hseq : u.seq.ph = s.seq.ph ∧ u.seq.step = s.seq.step ∧ u.seq.idx = s.seq.idx) (hcfg : u.cfg = s.cfg) :
    Meaningful i u := by
  obtain ⟨hph, hstep, hidx⟩ := hseq
  refine ⟨hph ▸ h.enters_ph, fun hraw => ?_, fun hwrite => ?_⟩
  · rw [hidx, hcfg]
    exact h.raw_byte (hph ▸ hraw)
  · rw [commandOf_congr hstep]
    exact h.command (hph ▸ hwrite)

/-- A primitive does the same in two states that differ in `LINK` alone. -/
theorem tickOf_unlinked {i : Instr} {s u : State} (hsame : u.unlinked = s.unlinked)
    (h : tickOf i s ≠ .refused .unreachableSeq) : (tickOf i u).unlinked = (tickOf i s).unlinked := by
  have hs := meaningful_of_ne_refused h
  have hseq : u.unlinked.seq = s.unlinked.seq := congrArg State.seq hsame
  have hcfg : u.unlinked.cfg = s.unlinked.cfg := congrArg State.cfg hsame
  obtain ⟨m, hm, hsm⟩ := (tickOf_fires hs).unlinked
  have hu : Meaningful i u :=
    hs.congr ⟨congrArg Seq.ph hseq, congrArg Seq.step hseq, congrArg Seq.idx hseq⟩ hcfg
  obtain ⟨m', hm', hum⟩ := (tickOf_fires hu).unlinked
  rw [← hsm, ← hum]
  rw [hsame] at hm'
  exact congrArg Move.unlinked (hm.functional hm')

theorem Move.eq_go_of_unlinked {m : Move} {s : State} (h : m.unlinked = .go s) : ∃ u, m = .go u ∧ u.unlinked = s := by
  cases m with
  | go u => exact ⟨u, rfl, Move.go.inj h⟩
  | halt | refused => cases h

theorem Move.eq_halt_of_unlinked {m : Move} {s : State} (h : m.unlinked = .halt s) :
    ∃ u, m = .halt u ∧ u.unlinked = s := by
  cases m with
  | halt u => exact ⟨u, rfl, Move.halt.inj h⟩
  | go | refused => cases h

/-- A whole run does the same from two states that differ in `LINK` alone. -/
theorem run_unlinked {i : Instr} {n : Nat} {s u t : State} (hsame : u.unlinked = s.unlinked)
    (h : run (tickOf i) n s = .next t) : ∃ t', run (tickOf i) n u = .next t' ∧ t'.unlinked = t.unlinked := by
  induction n generalizing s u with
  | zero =>
    obtain rfl : s = t := Host.Outcome.next.inj h
    exact ⟨u, rfl, hsame⟩
  | succ n ih =>
    cases hs : tickOf i s with
    | go s' =>
      obtain ⟨u', hu, hnext⟩ :=
        Move.eq_go_of_unlinked ((tickOf_unlinked hsame (by rw [hs]; nofun)).trans (by rw [hs]; rfl))
      rw [run_go hs] at h
      rw [run_go hu]
      exact ih hnext h
    | halt s' =>
      obtain ⟨u', hu, hnext⟩ :=
        Move.eq_halt_of_unlinked ((tickOf_unlinked hsame (by rw [hs]; nofun)).trans (by rw [hs]; rfl))
      rw [run_halt hs] at h
      obtain rfl : s' = t := Host.Outcome.next.inj h
      exact ⟨u', run_halt hu n, hnext⟩
    | refused r =>
      rw [run_refused hs] at h
      cases h

theorem ignoresLink_startOf (i : Instr) : IgnoresLink (startOf i) := by
  cases i with
  | blink => exact ignoresLink_blinkLoop.comp (g := fun s => { s with seq := { s.seq with cnt := s.countOf } }) fun _ => rfl
  | _ => exact fun _ => rfl

/-- Settles O49: an IDLE block by `run_unlinked`; a busy one answers the state it is given, and a FAULTED one none. -/
theorem linkIsNeverRead : Obligations.LinkIsNeverRead := by
  intro s t i l h
  by_cases hidle : s.seq.ph = .idle
  · rw [exec_eq_serve, serve_idle hidle] at h
    have haccept : IgnoresLink (State.accept (encode i)) := fun _ => rfl
    have hstart := (ignoresLink_startOf i).comp haccept
    have hsame : (startOf i (State.accept (encode i) { s with link := l })).unlinked =
        (startOf i (s.accept (encode i))).unlinked :=
      (hstart { s with link := l }).symm.trans (hstart s)
    obtain ⟨t', hrun, ht'⟩ := run_unlinked hsame h
    refine ⟨t', ?_, ?_⟩
    · rw [exec_eq_serve, serve_idle (s := { s with link := l }) hidle]
      exact hrun
    · exact congrArg (fun u : State => { u with link := t.link }) ht'
  · by_cases hfaulted : s.seq.ph = .faulted
    · rw [exec_faulted i hfaulted] at h
      cases h
    · rw [exec_eq_serve, serve_busy hidle hfaulted] at h
      obtain rfl : s = t := Host.Outcome.next.inj h
      exact ⟨{ s with link := l }, (exec_eq_serve i _).trans (serve_busy hidle hfaulted), rfl⟩

end Sys2Proof.Machine
end

section
/-! PROOFS. The rows of the INITD state machine (spec 41_init R133): each is what its primitive does (`Fires`), read at the
phase of the row. -/

namespace Sys2Proof.Machine

open Sys2Proof

/-- A primitive that has a meaning does what its phase and the agents' draws say. -/
theorem seqTick_eq_of_fires {i : Instr} {s : State} {m : Move} (hdecode : decode s.req0 s.req1 = .ok i)
    (hmeaning : Meaningful i s) (h : Fires i s m) : seqTick s = m := by
  rw [seqTick_of_decode hdecode]
  exact h.functional (tickOf_fires hmeaning)

section
variable {s : State}

/-- The phases of an INITD (41_init R133); a command is one of its ten steps. -/
theorem meaningful_initd (henters : enters .initd s.seq.ph = true)
    (hrom : s.seq.ph = .write → (initRom s.seq.step).isSome = true) : Meaningful .initd s := by
  refine ⟨henters, fun hph => ?_, fun hph => ?_⟩
  · rw [hph] at henters
    cases henters
  · simpa [commandOf] using hrom hph

theorem initRom_isSome {k : BitVec 4} (h1 : 1 ≤ k.toNat) (h10 : k.toNat ≤ 10) : (initRom k).isSome = true := by
  obtain ⟨row, hrow, -⟩ := initRom_mode k h1 h10
  rw [hrow]
  rfl

/-- The first step's command. -/
theorem initdStep_one (hpend : s.pend = .none) : initdStep 1 s = { s with seq := { s.seq with
    step := 1, issued := 0x30, cur := 0x30, rs := 0, sub := .hiSet, ph := .write } } := by
  change State.issueCommand 0x30 0 { s with seq := { s.seq with step := 1 } } = _
  simp [State.issueCommand, hpend]

/-- After the tenth step the close. -/
theorem initdNext_last (hstep : s.seq.step = 10) : initdNext s = s.goto .close := by
  rw [initdNext, hstep]
  rfl

/-- After any other step the wait for the delay it owes, and then the next one. -/
theorem initdNext_row {row : InitStep} (hrow : initRom (s.seq.step + 1) = some row) (hpend : s.pend ≠ .none) :
    initdNext s = { s with seq := { s.seq with
      step := s.seq.step + 1, issued := row.value, rs := 0, sub := .hiSet, ph := .waitIn } } := by
  rw [initdNext, initdStep, hrow]
  simp [State.issueCommand, hpend]

variable (hdecode : decode s.req0 s.req1 = .ok .initd)
include hdecode

/-- The abort rows: a failed open or write. -/
theorem initd_row_failed {t : Tape Answer} (hdraw : s.transport.draw = some (.err, t)) (hasked : s.seq.asked = 0)
    (hph : s.seq.ph = .openBus ∨ s.seq.ph = .preWrite ∨ (s.seq.ph = .write ∧ 1 ≤ s.seq.step.toNat ∧ s.seq.step.toNat ≤ 10)) :
    ∃ u failed, seqTick s = .go u ∧ s.callEvent .err = some failed ∧ u.trace = s.trace ++ [failed] ∧
      u.session = (if s.seq.ph = .openBus then 1 else s.session) ∧
      u.errWidx = (if s.seq.ph = .openBus then s.errWidx else s.errWidx + 1) ∧
      (u.seq.ph, u.seq.step, u.seq.sub) = (.close, s.seq.step, s.seq.sub) ∧ u.seq.abort = 1 ∧ u.pend = .none ∧
      u.errOp = 2 ∧ u.errStep = s.seq.step ∧ u.errStage = (if s.seq.ph = .openBus then .opening else .writing) := by
  have hmeaning : Meaningful .initd s := meaningful_initd (by rcases hph with hph | hph | ⟨hph, -⟩ <;> rw [hph] <;> rfl)
    (by rcases hph with hph | hph | ⟨hph, h1, h10⟩ <;> simp [hph]; exact initRom_isSome h1 h10)
  have hcalls : s.seq.ph.calls = true := by rcases hph with hph | hph | ⟨hph, -⟩ <;> rw [hph] <;> rfl
  obtain ⟨e, he, hgo⟩ := (tickOf_fires hmeaning).eq_of_err hcalls hdraw
  rw [← seqTick_of_decode hdecode, State.afterCall_eq] at hgo
  refine ⟨_, e, hgo, he, rfl, ?_, ?_, rfl, rfl, rfl, opOf_of_decode hdecode, rfl, s.seq.ph.stage_eq⟩
  · simp [hasked]
  · simp [hasked]

/-- The row OPEN. -/
theorem initd_row_open {t : Tape Answer} (hdraw : s.transport.draw = some (.ok, t)) (hasked : s.seq.asked = 0)
    (hph : s.seq.ph = .openBus) (hpend : s.pend = .none) :
    ∃ u, seqTick s = .go u ∧ u.session = 1 ∧ u.trace = s.trace ++ [.opened s.cfg.devAddr .ok] ∧
      (s.cfg.regPrefix = true → (u.seq.ph, u.seq.step, u.seq.sub) = (.preWrite, s.seq.step, s.seq.sub)) ∧
      (s.cfg.regPrefix = false →
        (u.seq.ph, u.seq.step, u.seq.sub, u.seq.cur, u.seq.rs) = (.write, 1, .hiSet, 0x30, 0)) := by
  have hgo := seqTick_eq_of_fires hdecode (meaningful_of_openBus hph)
    (.answered (by rw [hph]; rfl) hdraw (by rw [State.callEvent, hph]))
  rw [hph, State.afterCall_eq] at hgo
  cases hprefix : s.cfg.regPrefix with
  | true =>
    rw [contOf, hprefix, if_pos rfl] at hgo
    exact ⟨_, hgo, by simp [hph, hasked], rfl, fun _ => rfl, nofun⟩
  | false =>
    rw [contOf, hprefix, if_neg Bool.false_ne_true, firstOf, initdStep_one] at hgo
    · exact ⟨_, hgo, by simp [hph, hasked], rfl, nofun, fun _ => rfl⟩
    · exact hpend

/-- The row PREFIX. -/
theorem initd_row_preWrite {t : Tape Answer} (hdraw : s.transport.draw = some (.ok, t)) (hasked : s.seq.asked = 0)
    (hph : s.seq.ph = .preWrite) (hpend : s.pend = .none) :
    ∃ u, seqTick s = .go u ∧ u.errWidx = s.errWidx + 1 ∧ u.trace = s.trace ++ [.wrote s.cfg.gpioReg .pre .ok] ∧
      (u.seq.ph, u.seq.step, u.seq.sub, u.seq.cur, u.seq.rs) = (.write, 1, .hiSet, 0x30, 0) := by
  have hgo := seqTick_eq_of_fires hdecode (meaningful_initd (by rw [hph]; rfl) (by simp [hph]))
    (.answered (by rw [hph]; rfl) hdraw (by rw [State.callEvent, hph]))
  rw [hph, State.afterCall_eq, contOf, firstOf, initdStep_one] at hgo
  · exact ⟨_, hgo, by simp [hph, hasked], rfl, rfl⟩
  · exact hpend

/-- The row WRITE: each of its positions, and the end of a step. -/
theorem initd_row_write {t : Tape Answer} {row : InitStep} (hdraw : s.transport.draw = some (.ok, t))
    (hasked : s.seq.asked = 0) (hph : s.seq.ph = .write) (hrow : initRom s.seq.step = some row)
    (hcur : s.seq.cur = row.value) (hrs : s.seq.rs = 0) :
    ∃ u, seqTick s = .go u ∧ u.errWidx = s.errWidx + 1 ∧
      u.trace = s.trace ++ [.wrote (writerByte s.cfg row.value 0 s.bl s.seq.sub) .port .ok] ∧
      (s.seq.sub.endsCommand row.mode = false →
        (u.seq.ph, u.seq.step, u.seq.sub, u.pend) = (.write, s.seq.step, s.seq.sub.following, s.pend)) ∧
      (s.seq.sub.endsCommand row.mode = true → s.seq.step.toNat < 10 →
        (u.seq.ph, u.seq.step, u.seq.sub, u.pend) = (.waitIn, s.seq.step + 1, .hiSet, row.cls) ∧
          u.seq.cur = s.seq.cur ∧ ∀ row', initRom (s.seq.step + 1) = some row' → u.seq.issued = row'.value) ∧
      (s.seq.sub.endsCommand row.mode = true → s.seq.step = 10 →
        (u.seq.ph, u.seq.step, u.seq.sub, u.pend) = (.close, 10, .hiSet, .std)) := by
  have hevent : s.callEvent .ok = some (.wrote (writerByte s.cfg row.value 0 s.bl s.seq.sub) .port .ok) := by
    rw [State.callEvent, hph, hcur, hrs]
    rfl
  have hgo := seqTick_eq_of_fires hdecode (meaningful_initd (by rw [hph]; rfl) (by simp [hrow]))
    (.answered (by rw [hph]; rfl) hdraw hevent)
  have hwidx : (s.afterCall t (.wrote (writerByte s.cfg row.value 0 s.bl s.seq.sub) .port .ok)).errWidx = s.errWidx + 1 := by
    rw [State.afterCall_eq]
    simp [hph, hasked]
  have htrace := s.afterCall_trace t (.wrote (writerByte s.cfg row.value 0 s.bl s.seq.sub) .port .ok)
  have hseq := s.afterCall_seq t (.wrote (writerByte s.cfg row.value 0 s.bl s.seq.sub) .port .ok)
  have hpend := s.afterCall_pend t (.wrote (writerByte s.cfg row.value 0 s.bl s.seq.sub) .port .ok)
  rw [hph] at hgo
  generalize s.afterCall t _ = u at *
  have hsub : u.seq.sub = s.seq.sub := by rw [hseq]
  have hcmd : commandOf .initd u = some (row.mode, row.cls) := by simp [commandOf, hseq, hrow]
  rw [contOf_write hcmd, hsub] at hgo
  cases hends : s.seq.sub.endsCommand row.mode with
  | false =>
    rw [hends, if_neg Bool.false_ne_true] at hgo
    refine ⟨_, hgo, hwidx, htrace, fun _ => ?_, nofun, nofun⟩
    simp [State.atSub, hseq, hph, hpend]
  | true =>
    rw [hends, if_pos rfl] at hgo
    have hstep : ({ u.atSub .hiSet with pend := row.cls } : State).seq.step = s.seq.step := by simp [State.atSub, hseq]
    obtain ⟨h1, h10⟩ := initRom_range _ (Option.isSome_of_eq_some hrow)
    by_cases hlast : s.seq.step = 10
    · change seqTick s = .go (initdNext _) at hgo
      rw [initdNext_last (hstep.trans hlast)] at hgo
      refine ⟨_, hgo, hwidx, htrace, nofun, fun _ hlt => ?_, fun _ _ => ?_⟩
      · rw [hlast] at hlt
        exact absurd hlt (by decide)
      · rw [hlast] at hrow
        obtain rfl := Option.some.inj hrow
        simp [State.atSub, hseq, hlast]
    · have hlt : s.seq.step.toNat < 10 := Nat.lt_of_le_of_ne h10 fun heq => hlast (BitVec.eq_of_toNat_eq heq)
      have hsucc : (s.seq.step + 1).toNat = s.seq.step.toNat + 1 := by
        rw [BitVec.toNat_add]
        exact Nat.mod_eq_of_lt (by simp; omega)
      obtain ⟨row', hrow', -⟩ := initRom_mode (s.seq.step + 1) (by omega) (by omega)
      change seqTick s = .go (initdNext _) at hgo
      rw [initdNext_row (row := row') (by rw [hstep]; exact hrow') (initRom_cls_ne_none hrow)] at hgo
      refine ⟨_, hgo, hwidx, htrace, nofun, fun _ _ => ⟨?_, ?_, fun row'' hrow'' => ?_⟩, fun _ h => absurd h hlast⟩
      · simp [State.atSub, hseq]
      · simp [State.atSub, hseq]
      · rw [Option.some.inj (hrow'.symm.trans hrow'')]

/-- The row WAIT_IN. -/
theorem initd_row_waitIn {late : Nat} {t : Tape Nat} (hdraw : s.timer.draw = some (late, t)) (hph : s.seq.ph = .waitIn)
    (hpend : s.pend ≠ .none) :
    ∃ u, seqTick s = .go u ∧ u.trace = s.trace ++ [.delayed s.pend (duration s.cfg s.pend + late)] ∧ u.pend = .none ∧
      (u.seq.ph, u.seq.step, u.seq.sub) = (.write, s.seq.step, s.seq.sub) ∧ u.seq.cur = s.seq.issued := by
  have hclass : s.waitClass = s.pend := by rw [State.waitClass, hph]
  have hgo := seqTick_eq_of_fires hdecode (meaningful_initd (by rw [hph]; rfl) (by simp [hph]))
    (.ended (by rw [hph]; rfl) (hclass ▸ hpend) hdraw)
  rw [hph, State.afterWait, hclass] at hgo
  exact ⟨_, hgo, rfl, rfl, rfl, rfl⟩

/-- The row CLOSE, after success. -/
theorem initd_row_close (habort : s.seq.abort = 0) (hph : s.seq.ph = .close) :
    ∃ u, seqTick s = .go u ∧ u.session = 0 ∧ u.trace = s.trace ++ [.closed] ∧
      (u.seq.ph, u.seq.step, u.seq.sub) = (if s.pend = .none then .resp else .waitTail, s.seq.step, .hiSet) := by
  have hgo := seqTick_eq_of_fires hdecode (meaningful_initd (by rw [hph]; rfl) (by simp [hph])) (.closed hph habort)
  change seqTick s = .go (if s.pend = .none then initdDone s.endSession else s.endSession.goto .waitTail) at hgo
  by_cases hpend : s.pend = .none
  · rw [if_pos hpend] at hgo
    exact ⟨_, hgo, rfl, rfl, by rw [if_pos hpend]; rfl⟩
  · rw [if_neg hpend] at hgo
    exact ⟨_, hgo, rfl, rfl, by rw [if_neg hpend]; rfl⟩

/-- The row WAIT_TAIL. -/
theorem initd_row_waitTail {late : Nat} {t : Tape Nat} (hdraw : s.timer.draw = some (late, t))
    (hph : s.seq.ph = .waitTail) (hpend : s.pend ≠ .none) :
    ∃ u, seqTick s = .go u ∧ u.trace = s.trace ++ [.delayed s.pend (duration s.cfg s.pend + late)] ∧ u.pend = .none ∧
      u.link = .ready ∧ u.status = .ok ∧ (u.seq.ph, u.seq.step, u.seq.sub) = (.resp, s.seq.step, s.seq.sub) := by
  have hclass : s.waitClass = s.pend := by rw [State.waitClass, hph]
  have hgo := seqTick_eq_of_fires hdecode (meaningful_initd (by rw [hph]; rfl) (by simp [hph]))
    (.ended (by rw [hph]; rfl) (hclass ▸ hpend) hdraw)
  rw [hph, State.afterWait, hclass] at hgo
  exact ⟨_, hgo, rfl, rfl, rfl, rfl, rfl⟩

end

/-- The acceptance row. -/
theorem initd_row_accepted (r : Request) (s : State) : (initdStart (s.accept r)).pend = .none ∧
    (initdStart (s.accept r)).errWidx = 0 ∧ (initdStart (s.accept r)).trace = s.trace ∧
    ((initdStart (s.accept r)).seq.ph, (initdStart (s.accept r)).seq.step, (initdStart (s.accept r)).seq.sub) =
      (.openBus, 0, .hiSet) := ⟨rfl, rfl, rfl, rfl⟩

/-- Settles O26: row by row. -/
theorem initdTransitionTable : Obligations.InitdTransitionTable := by
  refine ⟨fun s _ => ?_, fun s hdecode hph habort => ?_,
    fun s hdecode hph => ⟨_, seqTick_resp hdecode hph, rfl, rfl⟩, fun s hdecode habort hasked => ?_⟩
  · obtain ⟨hpend, hwidx, htrace, hseq⟩ := initd_row_accepted (encode .initd) s
    exact ⟨hpend, hwidx, htrace, hseq, s.decode_started .initd⟩
  · exact ⟨_, seqTick_close_abort hdecode hph habort, rfl, rfl, rfl, rfl, rfl, rfl⟩
  · exact ⟨fun _ hdraw hph => initd_row_failed hdecode hdraw hasked hph,
      fun _ hdraw hph hpend => initd_row_open hdecode hdraw hasked hph hpend,
      fun _ hdraw hph hpend => initd_row_preWrite hdecode hdraw hasked hph hpend,
      fun _ _ hdraw hph hrow hcur hrs _ => initd_row_write hdecode hdraw hasked hph hrow hcur hrs,
      fun _ _ hdraw hph hpend => initd_row_waitIn hdecode hdraw hph hpend,
      fun hph => initd_row_close hdecode habort hph,
      fun _ _ hdraw hph hpend => initd_row_waitTail hdecode hdraw hph hpend⟩

end Sys2Proof.Machine
end

section
/-! PROOFS. The minimum time of a successful INITD (spec 70_reset_and_hazards R262): at every position of the sequencer the
steps behind it have had their delays, but for the one still owed. -/

namespace Sys2Proof.Machine

open Sys2Proof

/-- The durations of the delays of the first `k` steps (41_init R131). -/
def timeThrough (c : Config) : Nat → Nat
  | 0 => 0
  | k + 1 => timeThrough c k + match initRom (BitVec.ofNat 4 (k + 1)) with
    | some row => duration c row.cls
    | none => 0

theorem timeThrough_ten (c : Config) :
    timeThrough c 10 = c.tPor1Us + 2 * c.tShortUs + 5 * c.tStdUs + c.tClearUs + c.tHomeUs := by
  simp [timeThrough, initRom, duration]
  omega

theorem timeThrough_step {k : BitVec 4} {row : InitStep} (hrow : initRom k = some row) (c : Config) :
    timeThrough c k.toNat = timeThrough c (k.toNat - 1) + duration c row.cls := by
  obtain ⟨h1, -⟩ := initRom_range k (Option.isSome_of_eq_some hrow)
  obtain ⟨n, hn⟩ : ∃ n, k.toNat = n + 1 := ⟨k.toNat - 1, by omega⟩
  have hk : BitVec.ofNat 4 (n + 1) = k := by rw [← hn]; simp
  rw [hn, timeThrough, hk, hrow]
  rfl

/-- The time that an INITD must have waited by the time its sequencer stands where it does. -/
def dueTime (u : State) : Nat :=
  match u.seq.ph with
  | .write => timeThrough u.cfg (u.seq.step.toNat - 1)
  | .waitIn => timeThrough u.cfg (u.seq.step.toNat - 1) - duration u.cfg u.pend
  | .close | .waitTail => if u.seq.abort = 1 then 0 else timeThrough u.cfg 10 - duration u.cfg u.pend
  | .resp | .idle => if u.status = .ok then timeThrough u.cfg 10 else 0
  | .openBus | .preWrite | .read | .raw | .blWrite | .blWait | .faulted => 0

/-- The delays of a step behind the sequencer are no longer due, but for the one owed. -/
structure Waited (s u : State) : Prop where
  cfg_eq : u.cfg = s.cfg
  events : ∃ l, u.trace = s.trace ++ l ∧ dueTime u ≤ timeWaited l

theorem timeWaited_append (l₁ l₂ : List Event) : timeWaited (l₁ ++ l₂) = timeWaited l₁ + timeWaited l₂ := by
  induction l₁ with
  | nil => simp [timeWaited]
  | cons e l ih => cases e <;> simp [timeWaited, ih, Nat.add_assoc]

/-- From `u` to `v` an INITD waits what becomes due. -/
structure Pays (u v : State) : Prop where
  cfg_eq : v.cfg = u.cfg
  events : ∃ l, v.trace = u.trace ++ l ∧ dueTime v ≤ dueTime u + timeWaited l

theorem Waited.pays {s u v : State} (h : Waited s u) (hpays : Pays u v) : Waited s v := by
  obtain ⟨hcfg, l, htrace, hdue⟩ := h
  obtain ⟨hcfg', l', htrace', hdue'⟩ := hpays
  refine ⟨hcfg'.trans hcfg, l ++ l', by rw [htrace', htrace, List.append_assoc], ?_⟩
  rw [timeWaited_append]
  omega

section
variable {u : State}

theorem dueTime_initdStep_one : dueTime (initdStep 1 u) = 0 := by
  have hissue : initdStep 1 u = State.issueCommand 0x30 0 { u with seq := { u.seq with step := 1 } } := rfl
  rw [hissue]
  by_cases hpend : u.pend = .none <;> simp [dueTime, hpend, timeThrough]

theorem dueTime_close_le : dueTime (u.goto .close) ≤ timeThrough u.cfg 10 - duration u.cfg u.pend := by
  change (if u.seq.abort = 1 then 0 else timeThrough u.cfg 10 - duration u.cfg u.pend) ≤ _
  split
  · exact Nat.zero_le _
  · exact Nat.le_refl _

theorem dueTime_waitTail_le : dueTime (u.goto .waitTail) ≤ timeThrough u.cfg 10 - duration u.cfg u.pend :=
  dueTime_close_le

/-- Of a step whose command has just been written the delay is owed. -/
theorem dueTime_initdNext {row : InitStep} (hrow : initRom u.seq.step = some row) (hpend : u.pend = row.cls) :
    dueTime (initdNext u) ≤ timeThrough u.cfg (u.seq.step.toNat - 1) := by
  obtain ⟨h1, h10⟩ := initRom_range _ (Option.isSome_of_eq_some hrow)
  have htime := timeThrough_step hrow u.cfg
  by_cases hlast : u.seq.step = 10
  · rw [initdNext_last hlast]
    have hdue := dueTime_close_le (u := u)
    have hten : timeThrough u.cfg u.seq.step.toNat = timeThrough u.cfg 10 := by rw [hlast]; rfl
    rw [hpend] at hdue
    omega
  · have hlt : u.seq.step.toNat < 10 := Nat.lt_of_le_of_ne h10 fun heq => hlast (BitVec.eq_of_toNat_eq heq)
    have hsucc : (u.seq.step + 1).toNat = u.seq.step.toNat + 1 := by
      rw [BitVec.toNat_add]
      exact Nat.mod_eq_of_lt (by simp; omega)
    obtain ⟨row', hrow', -⟩ := initRom_mode (u.seq.step + 1) (by omega) (by omega)
    rw [initdNext_row hrow' (hpend ▸ initRom_cls_ne_none hrow)]
    change timeThrough u.cfg ((u.seq.step + 1).toNat - 1) - duration u.cfg u.pend ≤ _
    rw [hsucc, hpend, Nat.add_sub_cancel]
    omega

theorem quiet_contOf_initd (p : Phase) : Quiet (contOf .initd p) := by
  cases p with
  | openBus => exact .ite (quiet_goto .preWrite) (quiet_initdStep 1)
  | preWrite => exact quiet_initdStep 1
  | write =>
    intro s
    rcases hcmd : commandOf .initd s with _ | ⟨mode, cls⟩
    · simp only [contOf, hcmd]
      exact ⟨rfl, rfl, rfl⟩
    · simp only [contOf, hcmd]
      exact quiet_afterByte mode (quiet_initdNext.comp (quiet_setPend cls)) s
  | raw => exact quiet_initxNext
  | blWrite => exact quiet_goto .close
  | _ => exact fun _ => ⟨rfl, rfl, rfl⟩

theorem quiet_resumeOf_initd (p : Phase) : Quiet (resumeOf .initd p) := by
  cases p with
  | waitIn => exact quiet_startCommand.comp (quiet_setPend .none)
  | waitTail => exact quiet_initdDone.comp (quiet_setPend .none)
  | blWait => exact quiet_blinkNext
  | _ => exact fun _ => ⟨rfl, rfl, rfl⟩

/-- A call answered OK makes nothing due that was not. -/
theorem dueTime_contOf (h : Meaningful .initd u) (hcalls : u.seq.ph.calls = true) :
    dueTime (contOf .initd u.seq.ph u) ≤ dueTime u := by
  obtain ⟨henters, -, hcommand⟩ := h
  cases hph : u.seq.ph <;> simp only [hph, Phase.calls, Bool.false_eq_true] at hcalls <;> rw [hph] at henters <;>
    dsimp only [contOf]
  case openBus =>
    split
    · exact Nat.zero_le _
    · exact dueTime_initdStep_one.le.trans (Nat.zero_le _)
  case preWrite => exact dueTime_initdStep_one.le.trans (Nat.zero_le _)
  case write =>
    have hdue : dueTime u = timeThrough u.cfg (u.seq.step.toNat - 1) := by rw [dueTime, hph]
    obtain ⟨row, hrow⟩ := Option.isSome_iff_exists.mp (by simpa [commandOf] using hcommand hph)
    have hcmd : commandOf .initd u = some (row.mode, row.cls) := by rw [commandOf, hrow]; rfl
    rw [hcmd, hdue]
    dsimp only
    rw [State.afterByte_eq]
    split
    · exact dueTime_initdNext (u := { u.atSub .hiSet with pend := row.cls }) hrow rfl
    · have hsame : dueTime (u.atSub u.seq.sub.following) = timeThrough u.cfg (u.seq.step.toNat - 1) := by
        rw [State.atSub, dueTime, hph]
      exact hsame.le
  case raw | blWrite => cases henters

/-- The wait for the delay owed. -/
theorem dueTime_resumeOf (henters : enters .initd u.seq.ph = true) (hwaits : u.seq.ph.waits = true)
    (habort : u.seq.abort = 0) {v : State} {us : Nat}
    (hv : v.cfg = u.cfg ∧ v.seq = u.seq ∧ duration u.cfg u.pend ≤ us) :
    dueTime (resumeOf .initd u.seq.ph v) ≤ dueTime u + us := by
  obtain ⟨hcfg, hseq, hus⟩ := hv
  cases hph : u.seq.ph <;> simp only [hph, Phase.waits, Bool.false_eq_true] at hwaits <;> rw [hph] at henters
  case waitIn =>
    have hdue : dueTime u = timeThrough u.cfg (u.seq.step.toNat - 1) - duration u.cfg u.pend := by rw [dueTime, hph]
    have hwrite : dueTime (resumeOf .initd .waitIn v) = timeThrough v.cfg (v.seq.step.toNat - 1) := rfl
    rw [hwrite, hdue, hcfg, hseq]
    omega
  case waitTail =>
    have hdue : dueTime u = timeThrough u.cfg 10 - duration u.cfg u.pend := by simp [dueTime, hph, habort]
    have hresp : dueTime (resumeOf .initd .waitTail v) = timeThrough v.cfg 10 := rfl
    rw [hresp, hdue, hcfg]
    omega
  case blWait => cases henters

end

section
variable {s u v : State} (h : Course .initd s u)
include h

/-- Every primitive of an INITD waits what it makes due. -/
theorem Course.pays (hgo : tickOf .initd u = .go v ∨ tickOf .initd u = .halt v) : Pays u v := by
  obtain ⟨m, hm, hmove⟩ : ∃ m, tickOf .initd u = m ∧ (m = .go v ∨ m = .halt v) := ⟨_, rfl, hgo⟩
  have hmeaning : Meaningful .initd u := meaningful_of_ne_refused (by rw [hm]; rcases hmove with rfl | rfl <;> nofun)
  have hlive (hwaits : u.seq.ph.waits = true) : u.seq.abort = 0 := by
    obtain ⟨hidle, hclose, hresp, -⟩ := Phase.of_waits hwaits
    exact (h.underWay ⟨hresp, hidle⟩ (.inr hclose)).1
  have hclass (hwaits : u.seq.ph.waits = true) : u.waitClass = u.pend := by
    have henters := hmeaning.enters_ph
    unfold State.waitClass
    cases hph : u.seq.ph <;> simp_all [enters, Phase.waits]
  have hfires := hm ▸ tickOf_fires hmeaning
  cases hfires with
  | unanswered hcalls hdraw =>
    obtain rfl : u.call = v := by simpa using hmove
    refine ⟨u.call_cfg, [], by simp, ?_⟩
    rw [State.call_eq]
    exact Nat.le_refl _
  | @failed t e hcalls hdraw he =>
    obtain rfl : (u.afterCall t e).raiseBusError u.seq.ph.stage = v := by simpa using hmove
    exact ⟨u.afterCall_cfg t e, [e], u.afterCall_trace t e, Nat.zero_le _⟩
  | @answered t e hcalls hdraw he =>
    obtain rfl : contOf .initd u.seq.ph (u.afterCall t e) = v := by simpa using hmove
    have hquiet := quiet_contOf_initd u.seq.ph (u.afterCall t e)
    have hsame : (u.afterCall t e).seq.ph = u.seq.ph := by rw [State.afterCall_seq]
    have hdue : dueTime (u.afterCall t e) = dueTime u := by rw [State.afterCall_eq]; rfl
    have hmeaning' : Meaningful .initd (u.afterCall t e) :=
      hmeaning.congr (by rw [State.afterCall_seq]; exact ⟨rfl, rfl, rfl⟩) (u.afterCall_cfg t e)
    have hcont := dueTime_contOf hmeaning' (hsame ▸ hcalls)
    rw [hsame, hdue] at hcont
    exact ⟨hquiet.cfg_eq.trans (u.afterCall_cfg t e), [e], hquiet.trace_eq.trans (u.afterCall_trace t e),
      hcont.trans (Nat.le_add_right _ _)⟩
  | unended hwaits howed hdraw =>
    obtain rfl : u = v := by simpa using hmove
    exact ⟨rfl, [], by simp, Nat.le_refl _⟩
  | @ended late t hwaits howed hdraw =>
    obtain rfl : resumeOf .initd u.seq.ph (u.afterWait late t) = v := by simpa using hmove
    have hquiet := quiet_resumeOf_initd u.seq.ph (u.afterWait late t)
    refine ⟨hquiet.cfg_eq, [.delayed u.waitClass (duration u.cfg u.waitClass + late)], hquiet.trace_eq, ?_⟩
    have hdue := dueTime_resumeOf hmeaning.enters_ph hwaits (hlive hwaits) (v := u.afterWait late t)
      (us := duration u.cfg u.waitClass + late) ⟨rfl, rfl, by rw [hclass hwaits]; exact Nat.le_add_right _ _⟩
    simpa [timeWaited] using hdue
  | notOwed hwaits howed =>
    obtain rfl : resumeOf .initd u.seq.ph u = v := by simpa using hmove
    have hquiet := quiet_resumeOf_initd u.seq.ph u
    have hnone : u.pend = .none := (hclass hwaits).symm.trans howed
    exact ⟨hquiet.cfg_eq, [], by simpa using hquiet.trace_eq,
      dueTime_resumeOf hmeaning.enters_ph hwaits (hlive hwaits) ⟨rfl, rfl, by rw [hnone]; exact Nat.le_refl 0⟩⟩
  | read hph =>
    have henters := hmeaning.enters_ph
    rw [hph] at henters
    cases henters
  | closed hph habort =>
    obtain rfl : afterOf .initd u.endSession = v := by simpa using hmove
    have hquiet : SameRecord u.endSession (afterOf .initd u.endSession) :=
      quiet_finishCommands quiet_initdDone u.endSession
    refine ⟨hquiet.cfg_eq, [.closed], hquiet.trace_eq, ?_⟩
    have hdue : dueTime u = timeThrough u.cfg 10 - duration u.cfg u.pend := by simp [dueTime, hph, habort]
    change dueTime (if u.pend = .none then initdDone u.endSession else u.endSession.goto .waitTail) ≤ dueTime u + 0
    rw [hdue]
    split
    · next hnone =>
      rw [hnone]
      exact Nat.le_refl _
    · exact dueTime_waitTail_le
  | closedAbort hph habort =>
    obtain rfl : u.endSession.abortClosed = v := by simpa using hmove
    have hfailed : u.errStage.status ≠ .ok := by
      cases h.standing with
      | aborting _ _ hrecord => exact hrecord.status_ne_ok
      | underWay hzero | succeeded hzero => exact absurd (hzero.symm.trans habort) (by decide)
      | failed hend => simp [hph] at hend
    refine ⟨rfl, [.closed], rfl, ?_⟩
    have hdue : dueTime u.endSession.abortClosed = 0 := if_neg hfailed
    rw [hdue]
    exact Nat.zero_le _
  | responded hph =>
    obtain rfl : { u.log (.responded u.status) with seq := u.seq.afterResponse } = v := by simpa using hmove
    refine ⟨rfl, [.responded u.status], rfl, ?_⟩
    have hdue : dueTime u = if u.status = .ok then timeThrough u.cfg 10 else 0 := by rw [dueTime, hph]
    rw [hdue]
    exact Nat.le_refl _
  | faulted hph =>
    obtain rfl : u = v := by simpa using hmove
    exact ⟨rfl, [], by simp, Nat.le_refl _⟩

end

theorem sameRecord_started (i : Instr) (s : State) : SameRecord s (s.started i) :=
  (quiet_startOf i).comp (g := State.accept (encode i)) (fun _ => ⟨rfl, rfl, rfl⟩) s

theorem waited_started (s : State) : Waited s (s.started .initd) := by
  have hquiet := sameRecord_started .initd s
  have hph : (s.started .initd).seq.ph = .openBus := by rw [s.started_eq (by nofun)]
  refine ⟨hquiet.cfg_eq, [], by rw [List.append_nil, hquiet.trace_eq], ?_⟩
  rw [dueTime, hph]
  exact Nat.zero_le _

/-- Settles O28: an INITD that has responded OK has waited what was due. -/
theorem initdMinimumTime : Obligations.InitdMinimumTime := by
  refine ⟨fun s t hidle h hended hstatus => ?_, fun c h1 h2 h3 h4 => by omega⟩
  rw [exec_eq_serve, serve_idle hidle] at h
  have hstep (u v : State) (hu : Course .initd s u ∧ Waited s u)
      (hgo : tickOf .initd u = .go v ∨ tickOf .initd u = .halt v) : Course .initd s v ∧ Waited s v := ⟨hu.1.of_tickOf hgo, hu.2.pays (hu.1.pays hgo)⟩
  obtain ⟨-, hcfg, l, htrace, hdue⟩ := run_keeps (fun u => Course .initd s u ∧ Waited s u)
    (fun u v hu hgo => hstep u v hu (.inl hgo)) (fun u v hu hhalt => hstep u v hu (.inr hhalt)) maxPrimitives _ t
    ⟨course_started .initd s, waited_started s⟩ h
  refine ⟨l, htrace, ?_⟩
  have htotal : dueTime t = timeThrough t.cfg 10 := by simp [dueTime, hended, hstatus]
  rwa [htotal, hcfg, timeThrough_ten] at hdue

end Sys2Proof.Machine
end

section
/-! PROOFS. What a request leaves when every call is answered OK (spec 10_state R25, R27; 60_exceptions R220): from where
its last primitive before the response stands, the fields of `Completed`. -/

namespace Sys2Proof.Machine

open Sys2Proof

/-! ### The response -/

/-- The last assignments of a request that has succeeded. -/
def finalOf : Instr → State → State
  | .initd => initdDone
  | .initx | .putc _ _ | .puts _ _ _ | .setbl _ | .blink _ | .clear => State.respondOk

theorem finalOf_eq (i : Instr) (w : State) : finalOf i w = { w with
    status := .ok
    link := if i = .initd then .ready else w.link
    seq := { w.seq with ph := .resp } } := by
  cases i <;> rfl

theorem tickOf_resp (i : Instr) {u : State} (hph : u.seq.ph = .resp) :
    tickOf i u = .halt { u.log (.responded u.status) with seq := u.seq.afterResponse } := by
  rw [tickOf_eq_phaseMove, phaseMove, hph]
  rfl

/-- The request `i` accepted in `s` has done all but respond, adding `events`. -/
structure Finished (i : Instr) (s : State) (bl : Bit) (pend : DelayClass) (events : List Event) (w : State) : Prop where
  frame_eq : w.frame = { s.started i with bl := bl }.frame
  trace_eq : w.trace.map Event.untimed = s.trace.map Event.untimed ++ events
  errWidx_eq : w.errWidx = BitVec.ofNat 64 (countWrites events)
  session_eq : w.session = 0
  pend_eq : w.pend = pend

/-- What the frame of an accepted request keeps of the state it was accepted in. -/
theorem frame_started {i : Instr} (hi : i ≠ .blink 0) (s : State) (bl : Bit) :
    ∃ w0 w1, { s.started i with bl := bl }.frame = { s with req0 := w0, req1 := w1, bl := bl }.frame := by
  obtain ⟨w0, w1, haccept⟩ := s.accept_eq (encode i)
  refine ⟨w0, w1, ?_⟩
  rw [s.started_eq hi, haccept]
  rfl

theorem started_registers {i : Instr} (hi : i ≠ .blink 0) (s : State) : (s.started i).bl = blAtStart i s.bl ∧
    (s.started i).pend = (if writesCommands i then .none else s.pend) ∧ (s.started i).seq.idx = 0 ∧
    (s.started i).seq.cnt = countAtStart i ∧ (s.started i).seq.half = 0 ∧ (s.started i).mem = s.mem ∧
    (s.started i).host = s.host := by
  rw [s.started_eq hi]
  exact ⟨rfl, rfl, rfl, rfl, rfl, rfl, rfl⟩

/-- What the frame keeps. -/
theorem State.fields_of_frame_eq {u w : State} (h : w.frame = u.frame) : w.cfg = u.cfg ∧ w.bl = u.bl ∧ w.req0 = u.req0 ∧
    w.req1 = u.req1 ∧ w.link = u.link ∧ w.mem = u.mem ∧ w.host = u.host ∧ w.fault = u.fault ∧ w.errOp = u.errOp ∧
    w.errStage = u.errStage ∧ w.errStep = u.errStep := by
  simp only [State.frame, State.mk.injEq] at h
  simp [h]

/-- From its response a request that has succeeded is `Completed`. -/
theorem completed_of_leads {i : Instr} {s : State} {bound : Nat} {bl : Bit} {pend : DelayClass} {events : List Event}
    (hi : i ≠ .blink 0) (hidle : s.seq.ph = .idle) (hbound : bound < maxPrimitives)
    (hlead : Leads (tickOf i) bound (s.started i) fun u => ∃ w, Finished i s bl pend events w ∧ u = finalOf i w) :
    ∃ t, exec i s = .next t ∧
      Completed s t (encode i) (countWrites events) (events ++ [.responded .ok]) ∧
      t.session = 0 ∧ t.bl = bl ∧ t.link = (if i = .initd then .ready else s.link) ∧ t.pend = pend ∧ t.mem = s.mem := by
  obtain ⟨_, ⟨w, hw, rfl⟩, hhalt⟩ := hlead.run_eq hbound
  have hph : (finalOf i w).seq.ph = .resp := by rw [finalOf_eq]
  have hexec := (exec_eq_serve i s).trans ((serve_idle hidle).trans (hhalt _ (tickOf_resp i hph)))
  obtain ⟨h0, h1⟩ := Request.mk.inj (exec_latched hidle hexec)
  obtain ⟨w0, w1, hframe⟩ := frame_started hi s bl
  have hsame := hw.frame_eq.trans hframe
  obtain ⟨hcfg, hbl, -, -, hlink, hmem, hhost, hfault, hop, hstage, hstep⟩ := State.fields_of_frame_eq hsame
  rw [finalOf_eq] at hexec h0 h1
  refine ⟨_, hexec, ⟨?_, rfl, rfl, hw.errWidx_eq, h0, h1, hcfg, hop, hstage, hstep, hfault,
    congrArg HostAgent.queue hhost⟩, hw.session_eq, hbl, ?_, hw.pend_eq, hmem⟩
  · rw [← List.append_assoc, ← hw.trace_eq]
    exact List.map_append
  · rw [← hlink]
    rfl

/-- From where every delay has been waited a request has only to respond. -/
theorem finished_of_added {i : Instr} {s w : State} {bl : Bit} {events : List Event} (hi : i ≠ .blink 0)
    (hframe : w.frame = { s.started i with bl := bl }.frame)
    (htrace : w.trace.map Event.untimed = (s.started i).trace.map Event.untimed ++ events)
    (hwidx : w.errWidx = (s.started i).errWidx + BitVec.ofNat 64 (countWrites events)) (hsession : w.session = 0) :
    Finished i s bl w.pend events w := by
  have hzero : (s.started i).errWidx = 0 := by
    rw [s.started_eq hi]
    rfl
  rw [(sameRecord_started i s).trace_eq] at htrace
  rw [hzero] at hwidx
  exact ⟨hframe, htrace, hwidx.trans (BitVec.zero_add _), hsession, rfl⟩

/-- An accepted request starts in good order, whatever came before it. -/
theorem started_ready {i : Instr} (hi : i ≠ .blink 0) {s : State} (hok : s.transport.allOk) (hlive : s.timer.live) :
    (s.started i).Ready ∧ (s.started i).seq.ph = .openBus := by
  rw [s.started_eq hi]
  exact ⟨⟨rfl, rfl, hok, hlive⟩, rfl⟩

/-- From its acceptance to its response, every agent answering. -/
theorem completed_of_progress {i : Instr} {s : State} {bound : Nat} {bl : Bit} {pend : DelayClass} {events : List Event}
    (hi : i ≠ .blink 0) (hidle : s.seq.ph = .idle) (hbound : bound < maxPrimitives)
    (hlead : Leads (tickOf i) bound (s.started i) fun u => ∃ w, Progress { s.started i with bl := bl } events w ∧
      w.session = 0 ∧ w.pend = pend ∧ u = finalOf i w) :
    ∃ t, exec i s = .next t ∧ Completed s t (encode i) (countWrites events) (events ++ [.responded .ok]) ∧ t.session = 0 ∧
      t.bl = bl ∧ t.link = (if i = .initd then .ready else s.link) ∧ t.pend = pend ∧ t.mem = s.mem := by
  refine completed_of_leads hi hidle hbound (hlead.mono (Nat.le_refl _) ?_)
  rintro _ ⟨w, hw, hsession, rfl, rfl⟩
  exact ⟨w, finished_of_added hi hw.frame_eq hw.trace_eq hw.errWidx_eq hsession, rfl⟩

end Sys2Proof.Machine
end

section
/-! PROOFS. INITX, SETBL and BLINK with every call answered OK (spec 41_init R130, 43_backlight_clear R190 to R194): the
sessions in which no delay is owed, and what they add to the trace. -/

namespace Sys2Proof.Machine

open Sys2Proof

/-! ### A request without delays -/

/-- The block between two primitives of a request in good order whose transport answers OK; of the timer it says nothing. -/
structure State.Calm (s : State) : Prop where
  asked_eq : s.seq.asked = 0
  abort_eq : s.seq.abort = 0
  allOk : s.transport.allOk

/-- A request in good order has come from `s` to `u` without a wait, adding `events`, which count its writes. -/
structure Advance (s : State) (events : List Event) (u : State) : Prop where
  calm : u.Calm
  timer_eq : u.timer = s.timer
  pend_eq : u.pend = s.pend
  frame_eq : u.frame = s.frame
  trace_eq : u.trace = s.trace ++ events
  errWidx_eq : u.errWidx = s.errWidx + BitVec.ofNat 64 (countWrites events)

theorem countWrites_append (l₁ l₂ : List Event) : countWrites (l₁ ++ l₂) = countWrites l₁ + countWrites l₂ :=
  List.countP_append

section
variable {s u w : State} {l l₁ l₂ : List Event}

theorem Advance.refl (h : s.Calm) : Advance s [] s := ⟨h, rfl, rfl, rfl, by simp, by simp [countWrites]⟩

theorem Advance.trans (h₁ : Advance s l₁ u) (h₂ : Advance u l₂ w) : Advance s (l₁ ++ l₂) w where
  calm := h₂.calm
  timer_eq := h₂.timer_eq.trans h₁.timer_eq
  pend_eq := h₂.pend_eq.trans h₁.pend_eq
  frame_eq := h₂.frame_eq.trans h₁.frame_eq
  trace_eq := by rw [h₂.trace_eq, h₁.trace_eq, List.append_assoc]
  errWidx_eq := by
    rw [h₂.errWidx_eq, h₁.errWidx_eq, countWrites_append, BitVec.ofNat_add, BitVec.add_assoc]

/-- Where the sequencer stands is no part of it. -/
theorem Advance.reposition (h : Advance s l u) {q : Seq} (hasked : q.asked = 0) (habort : q.abort = 0) :
    Advance s l { u with seq := q } :=
  ⟨⟨hasked, habort, h.calm.allOk⟩, h.timer_eq, h.pend_eq, h.frame_eq, h.trace_eq, h.errWidx_eq⟩

theorem Advance.of_repositioned {q : Seq} (h : Advance { s with seq := q } l u) : Advance s l u :=
  ⟨h.calm, h.timer_eq, h.pend_eq, h.frame_eq, h.trace_eq, h.errWidx_eq⟩

theorem Advance.withBl (h : Advance s l u) {b : Bit} (hb : s.bl = b) : Advance { s with bl := b } l u := by
  subst hb
  exact h

theorem Advance.cfg_eq (h : Advance s l u) : u.cfg = s.cfg := by
  obtain ⟨hcfg, -⟩ := State.fields_of_frame_eq h.frame_eq
  exact hcfg

theorem Advance.bl_eq (h : Advance s l u) : u.bl = s.bl := by
  obtain ⟨-, hbl, -⟩ := State.fields_of_frame_eq h.frame_eq
  exact hbl

/-- A request whose timer answers too. -/
theorem Advance.progress (h : Advance s l u) (hlive : s.timer.live) (huntimed : l.map Event.untimed = l) :
    Progress s l u :=
  ⟨⟨h.calm.asked_eq, h.calm.abort_eq, h.calm.allOk, h.timer_eq ▸ hlive⟩, h.frame_eq,
    by rw [h.trace_eq, List.map_append, huntimed], h.errWidx_eq⟩

/-- A call answered OK. -/
theorem advance_afterCall (h : s.Calm) {e : Event} (he : s.callEvent .ok = some e) {t : Tape Answer} (ht : t.allOk) :
    Advance s [e] (s.afterCall t e) := by
  have hwidx : (s.afterCall t e).errWidx = s.errWidx + BitVec.ofNat 64 (countWrites [e]) := by
    rw [State.afterCall_eq]
    rcases State.callEvent_cases he with ⟨hph, rfl⟩ | ⟨hph, -, b, kind, rfl⟩
    · exact (if_pos (.inl hph)).trans (BitVec.add_zero _).symm
    · exact if_neg (not_or.mpr ⟨hph, by simp [h.asked_eq]⟩)
  refine ⟨?_, ?_, s.afterCall_pend t e, ?_, s.afterCall_trace t e, hwidx⟩ <;> rw [State.afterCall_eq]
  · exact ⟨rfl, h.abort_eq, ht⟩
  · rfl

theorem advance_endSession (h : s.Calm) : Advance s [.closed] s.endSession :=
  ⟨⟨h.asked_eq, h.abort_eq, h.allOk⟩, rfl, rfl, rfl, rfl, (BitVec.add_zero _).symm⟩

variable {i : Instr} {P : State → Prop} {bound : Nat}

/-- A phase that calls, its call answered OK. -/
theorem leads_call (h : s.Calm) (hmeaning : Meaningful i s) (hcalls : s.seq.ph.calls = true) {e : Event}
    (he : s.callEvent .ok = some e)
    (hnext : ∀ w, Advance s [e] w → w.seq = s.seq → w.session = (if s.seq.ph = .openBus then 1 else s.session) →
      Leads (tickOf i) bound (contOf i s.seq.ph w) P) : Leads (tickOf i) (bound + 1) s P := by
  obtain ⟨t, ht, hdraw⟩ := Tape.draw_of_allOk h.allOk
  have hgo := (Fires.answered hcalls hdraw he).functional (tickOf_fires hmeaning)
  refine leads_of_go hgo (hnext _ (advance_afterCall h he ht) ?_ ?_)
  · rw [State.afterCall_seq, ← h.asked_eq]
  · rw [State.afterCall_eq]
    simp [h.asked_eq]

/-- The close of a session in good order. -/
theorem tickOf_close (h : s.Calm) (hph : s.seq.ph = .close) : tickOf i s = .go (afterOf i s.endSession) :=
  (Fires.closed hph h.abort_eq).functional (tickOf_fires ⟨by rw [hph]; rfl, by simp [hph], by simp [hph]⟩)

/-- The counters of the loops. -/
def Seq.counters (q : Seq) : BitVec 32 × Byte × Bit := (q.idx, q.cnt, q.half)

/-- `BeginSession()`, of any request (20_memory R56). -/
theorem leads_beginSession (h : s.Calm) (hph : s.seq.ph = .openBus) :
    Leads (tickOf i) 2 s fun u => ∃ w, Advance s (beginEvents s.cfg) w ∧ w.session = 1 ∧
      w.seq.counters = s.seq.counters ∧ u = firstOf i w := by
  refine leads_call h (meaningful_of_openBus hph) (by rw [hph]; rfl) (by rw [State.callEvent, hph])
    fun w hw hseq hsession => ?_
  rw [if_pos hph] at hsession
  rw [hph, contOf, hw.cfg_eq]
  cases hprefix : s.cfg.regPrefix with
  | false =>
    refine (leads_here ⟨w, ?_, hsession, by rw [hseq], if_neg Bool.false_ne_true⟩).mono (by decide) fun _ h => h
    simpa [beginEvents, hprefix] using hw
  | true =>
    rw [if_pos rfl]
    have hcalm : (w.goto .preWrite).Calm := ⟨hw.calm.asked_eq, hw.calm.abort_eq, hw.calm.allOk⟩
    refine leads_call hcalm ⟨rfl, nofun, nofun⟩ rfl rfl fun v hv hvseq hvsession => leads_here ⟨v, ?_, ?_, ?_, rfl⟩
    · have hboth := hw.trans hv.of_repositioned
      rw [State.goto_cfg, hw.cfg_eq] at hboth
      simpa [beginEvents, hprefix] using hboth
    · exact hvsession.trans hsession
    · rw [hvseq, State.goto_seq, hseq]
      rfl

end

/-! ### From acceptance to response -/

/-- An accepted request starts in good order, whatever came before it. -/
theorem started_calm {i : Instr} (hi : i ≠ .blink 0) {s : State} (hok : s.transport.allOk) :
    (s.started i).Calm ∧ (s.started i).seq.ph = .openBus := by
  rw [s.started_eq hi]
  exact ⟨⟨rfl, rfl, hok⟩, rfl⟩

/-- Without a wait, from its acceptance to its response. -/
theorem completed_of_advance {i : Instr} {s : State} {bound : Nat} {bl : Bit} {l : List Event} (hi : i ≠ .blink 0)
    (hidle : s.seq.ph = .idle) (hbound : bound < maxPrimitives) (huntimed : l.map Event.untimed = l)
    (hlead : Leads (tickOf i) bound (s.started i) fun u => ∃ w, Advance { s.started i with bl := bl } l w ∧
      w.session = 0 ∧ u = finalOf i w) :
    ∃ t, exec i s = .next t ∧ Completed s t (encode i) (countWrites l) (l ++ [.responded .ok]) ∧ t.session = 0 ∧
      t.bl = bl ∧ t.link = (if i = .initd then .ready else s.link) ∧ t.pend = (s.started i).pend ∧ t.mem = s.mem := by
  refine completed_of_leads hi hidle hbound (hlead.mono (Nat.le_refl _) ?_)
  rintro _ ⟨w, hw, hsession, rfl⟩
  have hadded := finished_of_added hi hw.frame_eq (by rw [hw.trace_eq, List.map_append, huntimed]) hw.errWidx_eq hsession
  rw [hw.pend_eq] at hadded
  exact ⟨w, hadded, rfl⟩

/-! ### INITX -/

/-- The bytes of EXPANDER_INIT_SEQ from an index on (41_init R130). -/
theorem leads_initxLoop {n : Nat} {w : State} (h : w.Calm) (hn : w.seq.idx.toNat + n = w.cfg.expanderInitSeq.length)
    (hshort : w.cfg.expanderInitSeq.length ≤ 255) :
    Leads (tickOf .initx) n (initxLoop w) fun u => ∃ v,
      Advance w ((w.cfg.expanderInitSeq.drop w.seq.idx.toNat).map fun b => .wrote b .raw .ok) v ∧ v.session = w.session ∧
      u = v.goto .close := by
  induction n generalizing w with
  | zero =>
    have hloop : initxLoop w = w.goto .close := if_neg (by omega)
    rw [hloop, List.drop_of_length_le (by omega)]
    exact leads_here ⟨w, .refl h, rfl, rfl⟩
  | succ n ih =>
    have hidx : w.seq.idx.toNat < w.cfg.expanderInitSeq.length := by omega
    have hloop : initxLoop w = w.goto .raw := if_pos hidx
    have hcalm : (w.goto .raw).Calm := ⟨h.asked_eq, h.abort_eq, h.allOk⟩
    have hevent : (w.goto .raw).callEvent .ok = some (.wrote w.cfg.expanderInitSeq[w.seq.idx.toNat] .raw .ok) := by
      simp [State.callEvent, hidx]
    rw [hloop]
    refine leads_call hcalm ⟨rfl, fun _ => hidx, nofun⟩ rfl hevent fun v hv hvseq hvsession => ?_
    have hnext : (v.seq.idx + 1).toNat = w.seq.idx.toNat + 1 := by
      rw [hvseq, BitVec.toNat_add]
      exact Nat.mod_eq_of_lt (by simp; omega)
    have hadvance : Advance w [.wrote w.cfg.expanderInitSeq[w.seq.idx.toNat] .raw .ok]
        { v with seq := { v.seq with idx := v.seq.idx + 1 } } :=
      hv.of_repositioned.reposition hv.calm.asked_eq hv.calm.abort_eq
    refine (ih hadvance.calm ?_ ?_).mono (Nat.le_refl n) ?_
    · rw [hadvance.cfg_eq]
      dsimp only
      omega
    · rw [hadvance.cfg_eq]
      exact hshort
    · rintro _ ⟨u, hu, husession, rfl⟩
      refine ⟨u, ?_, husession.trans hvsession, rfl⟩
      have hboth := hadvance.trans hu
      rw [hadvance.cfg_eq] at hboth
      rw [List.drop_eq_getElem_cons hidx]
      simpa only [hnext, List.map_cons, List.singleton_append] using hboth

theorem countWrites_beginEvents (c : Config) : countWrites (beginEvents c) = beginWrites c := by
  cases hprefix : c.regPrefix <;> simp [beginEvents, beginWrites, hprefix, countWrites]

theorem map_untimed_beginEvents (c : Config) : (beginEvents c).map Event.untimed = beginEvents c := by
  cases hprefix : c.regPrefix <;> simp [beginEvents, hprefix, Event.untimed]

/-- `EndSession()` after a session in good order (20_memory R56). -/
theorem leads_close {i : Instr} {s : State} (h : s.Calm) (hph : s.seq.ph = .close) :
    Leads (tickOf i) 1 s fun u => ∃ w, Advance s [.closed] w ∧ w.session = 0 ∧ w.seq.counters = s.seq.counters ∧
      u = afterOf i w :=
  leads_of_go (tickOf_close h hph) (leads_here ⟨_, advance_endSession h, rfl, rfl, rfl⟩)

/-- The events of an INITX, its response apart (41_init R130). -/
def initxEvents (c : Config) : List Event :=
  beginEvents c ++ c.expanderInitSeq.map (fun b => .wrote b .raw .ok) ++ [.closed]

theorem countWrites_rawEvents (l : List Byte) : countWrites (l.map fun b => .wrote b .raw .ok) = l.length := by
  simp [countWrites, List.countP_map, Function.comp_def]

theorem countWrites_initxEvents (c : Config) :
    countWrites (initxEvents c) = beginWrites c + c.expanderInitSeq.length := by
  rw [initxEvents, countWrites_append, countWrites_append, countWrites_beginEvents, countWrites_rawEvents]
  rfl

theorem map_untimed_initxEvents (c : Config) : (initxEvents c).map Event.untimed = initxEvents c := by
  simp [initxEvents, map_untimed_beginEvents, Event.untimed]

/-- INITX from its first primitive to its response (41_init R130). -/
theorem leads_initx {s : State} (h : s.Calm) (hph : s.seq.ph = .openBus) (hidx : s.seq.idx = 0)
    (hshort : s.cfg.expanderInitSeq.length ≤ 255) :
    Leads (tickOf .initx) (2 + (s.cfg.expanderInitSeq.length + 1)) s fun u => ∃ w,
      Advance s (initxEvents s.cfg) w ∧ w.session = 0 ∧ u = w.respondOk := by
  refine (leads_beginSession h hph).bind ?_
  rintro _ ⟨w, hw, -, hcounters, rfl⟩
  have hwidx : w.seq.idx = 0 := (congrArg Prod.fst hcounters).trans hidx
  refine Leads.bind (leads_initxLoop hw.calm (by simp [hwidx, hw.cfg_eq]) (hw.cfg_eq ▸ hshort)) ?_
  rintro _ ⟨v, hv, -, rfl⟩
  refine (leads_close (s := v.goto .close) ⟨hv.calm.asked_eq, hv.calm.abort_eq, hv.calm.allOk⟩ rfl).mono (Nat.le_refl 1) ?_
  rintro _ ⟨u, hu, hsession, -, rfl⟩
  rw [hwidx, hw.cfg_eq] at hv
  exact ⟨u, (hw.trans hv).trans hu.of_repositioned, hsession, rfl⟩

/-- Settles O17: the session's begin, the bytes, and the close, by `leads_initx`. -/
theorem initxCompletes : Obligations.InitxCompletes := by
  intro s hidle hok hshort
  have hi : Instr.initx ≠ .blink 0 := nofun
  obtain ⟨hcalm, hph⟩ := started_calm hi hok
  have hcfg : (s.started .initx).cfg = s.cfg := (sameRecord_started .initx s).cfg_eq
  obtain ⟨hbl, hpend, hidx, -⟩ := started_registers hi s
  have hbound : 2 + (s.cfg.expanderInitSeq.length + 1) < maxPrimitives := by
    rw [maxPrimitives]
    omega
  have hlead := leads_initx hcalm hph hidx (by rw [hcfg]; exact hshort)
  rw [hcfg] at hlead
  have hcompleted := completed_of_advance hi hidle (bl := s.bl) hbound (map_untimed_initxEvents s.cfg)
    (hlead.mono (Nat.le_refl _) fun u ⟨w, hw, hsession, hu⟩ => ⟨w, hw.withBl hbl, hsession, hu⟩)
  rw [countWrites_initxEvents, hpend, initxEvents, List.append_assoc] at hcompleted
  exact hcompleted

/-! ### SETBL, and each half of a BLINK -/

theorem countWrites_backlightEvents (c : Config) (on : Bit) : countWrites (backlightEvents c on) = beginWrites c + 1 := by
  rw [backlightEvents, countWrites_append, countWrites_beginEvents]
  rfl

theorem map_untimed_backlightEvents (c : Config) (on : Bit) :
    (backlightEvents c on).map Event.untimed = backlightEvents c on := by
  simp [backlightEvents, map_untimed_beginEvents, Event.untimed]

/-- `SetBacklightStep(on)` from its `BusOpen` on, `BL` being `on` already (43_backlight_clear R190). -/
theorem leads_backlight {i : Instr} (hi : setsBacklight i = true) {s : State} (h : s.Calm) (hph : s.seq.ph = .openBus) :
    Leads (tickOf i) (2 + (1 + 1)) s fun u => ∃ w, Advance s (backlightEvents s.cfg s.bl) w ∧ w.session = 0 ∧
      w.seq.counters = s.seq.counters ∧ u = afterOf i w := by
  refine (leads_beginSession h hph).bind ?_
  rintro _ ⟨w, hw, -, hcounters, rfl⟩
  have hfirst : firstOf i w = w.goto .blWrite := by
    cases i with
    | setbl | blink => rfl
    | initx | initd | putc | puts | clear => cases hi
  have hcalm : (w.goto .blWrite).Calm := ⟨hw.calm.asked_eq, hw.calm.abort_eq, hw.calm.allOk⟩
  rw [hfirst]
  refine leads_call hcalm ⟨hi, nofun, nofun⟩ rfl rfl fun v hv hvseq _ => ?_
  refine (leads_close (s := v.goto .close) ⟨hv.calm.asked_eq, hv.calm.abort_eq, hv.calm.allOk⟩ rfl).mono (Nat.le_refl 1) ?_
  rintro _ ⟨u, hu, hsession, hucounters, rfl⟩
  refine ⟨u, ?_, hsession, ?_, rfl⟩
  · have hall := (hw.trans hv.of_repositioned).trans hu.of_repositioned
    rw [State.goto_cfg, State.goto_bl, hw.cfg_eq, hw.bl_eq, List.append_assoc] at hall
    exact hall
  · rw [hucounters, ← hcounters, State.goto_seq, hvseq]
    rfl

/-- Settles O22: the one session of a SETBL, by `leads_backlight`. -/
theorem setblCompletes : Obligations.SetblCompletes := by
  intro s on hidle hok
  have hi : Instr.setbl on ≠ .blink 0 := nofun
  obtain ⟨hcalm, hph⟩ := started_calm hi hok
  have hcfg : (s.started (.setbl on)).cfg = s.cfg := (sameRecord_started (.setbl on) s).cfg_eq
  obtain ⟨hbl, hpend, -⟩ := started_registers hi s
  have hlead := leads_backlight (i := .setbl on) rfl hcalm hph
  rw [hcfg, hbl] at hlead
  have hcompleted := completed_of_advance hi hidle (bl := on) (by decide) (map_untimed_backlightEvents s.cfg on)
    (hlead.mono (Nat.le_refl _) fun u ⟨w, hw, hsession, _, hu⟩ => ⟨w, hw.withBl hbl, hsession, hu⟩)
  rw [countWrites_backlightEvents, hpend] at hcompleted
  exact hcompleted

/-! ### BLINK -/

section
variable {s u w : State} {l l₁ l₂ : List Event}

theorem Progress.setBl (h : Progress s l u) (b : Bit) : Progress { s with bl := b } l { u with bl := b } :=
  ⟨⟨h.ready.asked_eq, h.ready.abort_eq, h.ready.allOk, h.ready.live⟩,
    congrArg (fun f : State => { f with bl := b }) h.frame_eq, h.trace_eq, h.errWidx_eq⟩

/-- `BL` is written between two halves. -/
theorem Progress.transBl (h₁ : Progress s l₁ u) {b : Bit} (h₂ : Progress { u with bl := b } l₂ w) :
    Progress { s with bl := b } (l₁ ++ l₂) w := (h₁.setBl b).trans h₂

end

/-- The wait of half a repetition. -/
theorem leads_blWait {count : Byte} {s : State} (h : s.Ready) (hph : s.seq.ph = .blWait) :
    Leads (tickOf (.blink count)) 1 s fun u => ∃ w, Progress s [delayEvent .blink] w ∧ w.session = s.session ∧
      w.pend = s.pend ∧ w.seq = s.seq ∧ u = blinkNext w := by
  obtain ⟨late, t, ht, hdraw⟩ := Tape.draw_of_live h.live
  have hclass : s.waitClass = .blink := by rw [State.waitClass, hph]
  have hgo := (Fires.ended (i := .blink count) (by rw [hph]; rfl) (by rw [hclass]; nofun) hdraw).functional
    (tickOf_fires ⟨by rw [hph]; rfl, by simp [hph], by simp [hph]⟩)
  rw [hph] at hgo
  refine leads_of_go hgo (leads_here ⟨s.afterWait late t, ?_, rfl, rfl, rfl, rfl⟩)
  refine ⟨⟨h.asked_eq, h.abort_eq, h.allOk, ht⟩, rfl, ?_, (BitVec.add_zero _).symm⟩
  rw [State.afterWait, hclass]
  exact List.map_append

/-- Half a repetition, from its `BusOpen` on (43_backlight_clear R193). -/
theorem leads_blinkHalf {count : Byte} {s : State} (h : s.Ready) (hph : s.seq.ph = .openBus) :
    Leads (tickOf (.blink count)) 5 s fun u => ∃ w, Progress s (backlightEvents s.cfg s.bl ++ [delayEvent .blink]) w ∧
      w.session = 0 ∧ w.pend = s.pend ∧ w.seq.counters = s.seq.counters ∧ u = blinkNext w := by
  refine (leads_backlight (i := .blink count) rfl ⟨h.asked_eq, h.abort_eq, h.allOk⟩ hph).bind (b := 1) ?_
  rintro _ ⟨v, hv, hsession, hcounters, rfl⟩
  have hprogress := hv.progress h.live (map_untimed_backlightEvents s.cfg s.bl)
  have hready : (v.goto .blWait).Ready :=
    ⟨hprogress.ready.asked_eq, hprogress.ready.abort_eq, hprogress.ready.allOk, hprogress.ready.live⟩
  refine (leads_blWait (s := v.goto .blWait) hready rfl).mono (Nat.le_refl 1) ?_
  rintro _ ⟨w, hw, hwsession, hwpend, hwseq, rfl⟩
  refine ⟨w, hprogress.trans (Progress.of_repositioned hw), hwsession.trans hsession, hwpend.trans hv.pend_eq, ?_, rfl⟩
  rw [hwseq, State.goto_seq, ← hcounters]
  rfl

/-- One repetition, up to the loop head (43_backlight_clear R193). -/
theorem leads_repetition {count : Byte} {s : State} (h : s.Ready) (hph : s.seq.ph = .openBus) (hbl : s.bl = 1)
    (hhalf : s.seq.half = 0) :
    Leads (tickOf (.blink count)) 10 s fun u => ∃ w, Progress { s with bl := 0 } (blinkEvents s.cfg 1) w ∧
      w.session = 0 ∧ w.pend = s.pend ∧ w.seq.cnt = s.seq.cnt - 1 ∧ u = blinkLoop w := by
  refine (leads_blinkHalf h hph).bind (b := 5) ?_
  rintro _ ⟨v, hv, -, hvpend, hvcounters, rfl⟩
  have hvhalf : v.seq.half = 0 := (congrArg (fun c => c.2.2) hvcounters).trans hhalf
  have hvcnt : v.seq.cnt = s.seq.cnt := congrArg (fun c => c.2.1) hvcounters
  have hoff : blinkNext v = { v with seq := { v.seq with half := 1 } }.backlightStep 0 := if_pos hvhalf
  rw [hoff]
  have hready : ({ v with seq := { v.seq with half := 1 } }.backlightStep 0).Ready :=
    ⟨hv.ready.asked_eq, hv.ready.abort_eq, hv.ready.allOk, hv.ready.live⟩
  refine (leads_blinkHalf hready rfl).mono (Nat.le_refl 5) ?_
  rintro _ ⟨w, hw, hwsession, hwpend, hwcounters, rfl⟩
  have hwhalf : w.seq.half = 1 := congrArg (fun c => c.2.2) hwcounters
  have hwcnt : w.seq.cnt = s.seq.cnt := (congrArg (fun c => c.2.1) hwcounters).trans hvcnt
  have hboth := hv.transBl (b := 0) (Progress.of_repositioned hw)
  refine ⟨{ w with seq := { w.seq with cnt := w.seq.cnt - 1 } }, ?_, hwsession, hwpend.trans hvpend, by rw [hwcnt],
    if_neg (by rw [hwhalf]; decide)⟩
  rw [State.backlightStep_cfg, State.backlightStep_bl, hv.cfg_eq, hbl] at hboth
  have hposition := hboth.reposition (q := { w.seq with cnt := w.seq.cnt - 1 }) hboth.ready.asked_eq hboth.ready.abort_eq
    w.pend w.session
  simpa [blinkEvents] using hposition

/-- The repetitions still to perform, from the on half of one of them on (43_backlight_clear R193). -/
theorem leads_repetitions {count : Byte} {n : Nat} {s : State} (h : s.Ready) (hph : s.seq.ph = .openBus)
    (hbl : s.bl = 1) (hhalf : s.seq.half = 0) (hn : s.seq.cnt.toNat = n + 1) :
    Leads (tickOf (.blink count)) (10 * (n + 1)) s fun u => ∃ w,
      Progress { s with bl := 0 } (blinkEvents s.cfg (n + 1)) w ∧ w.session = 0 ∧ w.pend = s.pend ∧ u = w.respondOk := by
  induction n generalizing s with
  | zero =>
    refine (leads_repetition h hph hbl hhalf).mono (Nat.le_refl 10) ?_
    rintro _ ⟨w, hw, hsession, hpend, hcnt, rfl⟩
    exact ⟨w, hw, hsession, hpend, if_pos (by bv_omega)⟩
  | succ n ih =>
    refine ((leads_repetition h hph hbl hhalf).bind (b := 10 * (n + 1)) ?_).mono (by omega) fun _ h => h
    rintro _ ⟨w, hw, -, hpend, hcnt, rfl⟩
    have hcount : w.seq.cnt.toNat = n + 1 := by bv_omega
    have hloop : blinkLoop w = { w with seq := { w.seq with half := 0 } }.backlightStep 1 := if_neg (by bv_omega)
    rw [hloop]
    have hready : ({ w with seq := { w.seq with half := 0 } }.backlightStep 1).Ready :=
      ⟨hw.ready.asked_eq, hw.ready.abort_eq, hw.ready.allOk, hw.ready.live⟩
    refine (ih hready rfl rfl rfl hcount).mono (Nat.le_refl _) ?_
    rintro _ ⟨v, hv, hvsession, hvpend, rfl⟩
    have hall := hw.transBl (b := 0) (Progress.of_repositioned hv)
    rw [State.backlightStep_cfg, hw.cfg_eq] at hall
    refine ⟨v, ?_, hvsession, hvpend.trans hpend, rfl⟩
    simpa [blinkEvents] using hall

theorem countWrites_blinkEvents (c : Config) (n : Nat) : countWrites (blinkEvents c n) = n * (2 * (beginWrites c + 1)) := by
  induction n with
  | zero => simp [blinkEvents, countWrites]
  | succ n ih =>
    simp only [blinkEvents, countWrites_append, countWrites_backlightEvents, ih]
    have hdelay : countWrites [delayEvent .blink] = 0 := rfl
    rw [hdelay]
    ring

/-- Settles O23: `BLINK 0` by O25, and any other count by `leads_repetitions`. -/
theorem blinkCompletes : Obligations.BlinkCompletes := by
  intro s count hidle hok hlive
  by_cases hcount : count = 0
  · subst hcount
    have hword : (encode (.blink 0)).w0 = 0x60000000 := by decide
    have hone : requestWords (encode (.blink 0)).w0 ≠ 2 := by decide
    refine ⟨_, blinkZeroOnlyResponds s hidle,
      ⟨?_, rfl, rfl, by simp, hword.symm, (if_neg hone).symm, rfl, rfl, rfl, rfl, rfl, rfl⟩,
      (if_pos rfl).symm, (if_pos rfl).symm, rfl, rfl, rfl⟩
    exact List.map_append
  · have hi : Instr.blink count ≠ .blink 0 := fun h => hcount (Instr.blink.inj h)
    obtain ⟨hready, hph⟩ := started_ready hi hok hlive
    have hcfg : (s.started (.blink count)).cfg = s.cfg := (sameRecord_started (.blink count) s).cfg_eq
    obtain ⟨hbl, hpend, -, hcnt, hhalf, -⟩ := started_registers hi s
    have hpos : count.toNat ≠ 0 := fun h => hcount (BitVec.eq_of_toNat_eq h)
    obtain ⟨n, hn⟩ : ∃ n, count.toNat = n + 1 := ⟨count.toNat - 1, by omega⟩
    have hbound : 10 * (n + 1) < maxPrimitives := by
      have hlt := count.isLt
      rw [maxPrimitives]
      omega
    have hlead := leads_repetitions (count := count) hready hph hbl hhalf (by rw [hcnt]; exact hn)
    have hevents : blinkEvents (s.started (.blink count)).cfg (n + 1) = blinkEvents s.cfg count.toNat := by rw [hcfg, hn]
    rw [hevents] at hlead
    have hcompleted := completed_of_progress hi hidle hbound hlead
    rw [countWrites_blinkEvents, hpend] at hcompleted
    rw [if_neg hcount, if_neg hcount]
    exact hcompleted

end Sys2Proof.Machine
end

section
/-! PROOFS. INITD, CLEAR and PUTC with every agent answering (spec 41_init R132, 43_backlight_clear R196, 42_character R160):
their commands and the delays owed between them, up to the response. -/

namespace Sys2Proof.Machine

open Sys2Proof

/-! ### A request that writes commands -/

theorem commandRequest_tickOf {i : Instr} (hi : writesCommands i = true) :
    CommandRequest (tickOf i) (firstOf i) (doneOf i) := by
  constructor <;> intro u hph <;> rw [tickOf_eq_phaseMove, phaseMove, hph] <;> dsimp only
  case openBus | preWrite | resp => exact if_pos rfl
  case waitIn | waitTail => exact if_pos hi
  case close =>
    rw [afterOf, if_pos hi]
    exact if_pos rfl

section
variable {s u w : State} {l : List Event} {i : Instr}

theorem Progress.decode_eq (h : Progress s l u) : decode u.req0 u.req1 = decode s.req0 s.req1 := by
  obtain ⟨-, -, h0, h1, -⟩ := State.fields_of_frame_eq h.frame_eq
  rw [h0, h1]

theorem Progress.mem_eq (h : Progress s l u) : u.mem = s.mem := by
  obtain ⟨-, -, -, -, -, hmem, -⟩ := State.fields_of_frame_eq h.frame_eq
  exact hmem

theorem Progress.host_eq (h : Progress s l u) : u.host = s.host := by
  obtain ⟨-, -, -, -, -, -, hhost, -⟩ := State.fields_of_frame_eq h.frame_eq
  exact hhost

/-- `BeginSession()` of such a request, after which no delay is owed (20_memory R56). -/
theorem leads_beginCommands (h : s.Ready) (hph : s.seq.ph = .openBus) :
    Leads (tickOf i) 2 s fun u => ∃ w, Progress s (beginEvents s.cfg) w ∧ w.pend = s.pend ∧
      w.seq.idx = s.seq.idx ∧ u = firstOf i w := by
  refine (leads_beginSession ⟨h.asked_eq, h.abort_eq, h.allOk⟩ hph).mono (Nat.le_refl 2) ?_
  rintro _ ⟨w, hw, -, hcounters, rfl⟩
  exact ⟨w, hw.progress h.live (map_untimed_beginEvents s.cfg), hw.pend_eq, congrArg Prod.fst hcounters, rfl⟩

/-- A command in two nibbles, with the delay owed before it (40_encoder_writer R106). -/
theorem leads_nibbles {cls : DelayClass} (hcmd : ∀ v : State, commandOf i v = some (.nibble, cls)) (h : s.Ready) (v : Byte)
    (rs : Bit) :
    Leads (tickOf i) 7 (s.issueCommand v rs) fun u => ∃ w,
      Progress s (owedEvents s.pend ++ commandEvents s.cfg s.bl v .nibble rs.toNat) w ∧ w.pend = cls ∧
      w.seq = { s.seq with ph := .write, sub := .hiSet, cur := v, issued := v, rs := rs } ∧ u = nextOf i w := by
  have hi : writesCommands i = true := writesCommands_of_commandOf (s := s) (by rw [hcmd]; rfl)
  refine (commandRequest_tickOf hi).leads_issueCommand (fun u hph _ => ?_) v rs h
  rw [tickOf_eq_phaseMove, phaseMove, hph, hcmd]
  exact if_pos hi

/-- `FinishCommands()`, once the last command has been written (40_encoder_writer R106). -/
theorem leads_finishCommands (hi : writesCommands i = true) (h : s.Ready) :
    Leads (tickOf i) 2 (s.goto .close) fun u => ∃ w, Progress s (.closed :: owedEvents s.pend) w ∧ w.session = 0 ∧
      w.pend = .none ∧ u = doneOf i w := by
  refine ((commandRequest_tickOf hi).leads_finish (s := s.goto .close) rfl
    ⟨h.asked_eq, h.abort_eq, h.allOk, h.live⟩).mono (Nat.le_refl 2) ?_
  rintro _ ⟨w, hw, hsession, hpend, rfl⟩
  exact ⟨w, Progress.of_repositioned hw, hsession, hpend, rfl⟩

end

theorem countWrites_nibbles (c : Config) (bl : Bit) (v : Byte) (rs : Nat) :
    countWrites (commandEvents c bl v .nibble rs) = 6 := countWrites_commandEvents c bl v .nibble rs

/-- From its acceptance to its response, with the `BL` it found. -/
theorem commands_complete {i : Instr} {s : State} {bound : Nat} {events : List Event} (hi : writesCommands i = true)
    (hidle : s.seq.ph = .idle) (hbound : bound < maxPrimitives)
    (hlead : Leads (tickOf i) bound (s.started i) fun u => ∃ w, Progress (s.started i) events w ∧
      w.session = 0 ∧ w.pend = .none ∧ u = doneOf i w) :
    ∃ t, exec i s = .next t ∧ Completed s t (encode i) (countWrites events) (events ++ [.responded .ok]) ∧ t.session = 0 ∧
      t.bl = s.bl ∧ t.link = (if i = .initd then .ready else s.link) ∧ t.pend = .none ∧ t.mem = s.mem := by
  have hne : i ≠ .blink 0 := by rintro rfl; cases hi
  have hbl : (s.started i).bl = s.bl := by
    rw [(started_registers hne s).1]
    cases i with
    | initd | putc | puts | clear => rfl
    | initx | setbl | blink => cases hi
  have hsame : { s.started i with bl := s.bl } = s.started i := by rw [← hbl]
  have hfinal : doneOf i = finalOf i := by
    cases i with
    | initd | putc | puts | clear => rfl
    | initx | setbl | blink => cases hi
  refine completed_of_progress (bl := s.bl) hne hidle hbound ?_
  rw [hsame, ← hfinal]
  exact hlead

/-! ### INITD -/

theorem countWrites_initd_closed (c : Config) (bl : Bit) :
    countWrites (initdSessionEvents c bl ++ [.closed, delayEvent .std]) = beginWrites c + 48 := by
  have hcounts := countWrites_initd c bl
  rw [countWrites_append] at hcounts ⊢
  have hend : countWrites [delayEvent .std, .responded .ok] = 0 := rfl
  have hend' : countWrites [.closed, delayEvent .std] = 0 := rfl
  rw [hend] at hcounts
  rw [hend', hcounts, beginWrites, Nat.add_comm]

/-- Settles O18: the ten steps by `leads_initd`. -/
theorem initdCompletes : Obligations.InitdCompletes := by
  intro s hidle hok hlive
  have hi : Instr.initd ≠ .blink 0 := nofun
  obtain ⟨hready, hph⟩ := started_ready hi hok hlive
  have hcfg : (s.started .initd).cfg = s.cfg := (sameRecord_started .initd s).cfg_eq
  obtain ⟨hbl, hpend, -⟩ := started_registers hi s
  have hlead := leads_initd hph hpend hready
  rw [hcfg, hbl] at hlead
  have hcompleted := commands_complete rfl hidle (by decide) hlead
  rw [countWrites_initd_closed, List.append_assoc] at hcompleted
  rw [initdEvents_eq]
  exact hcompleted

/-! ### CLEAR -/

/-- CLEAR from its first primitive to its response (43_backlight_clear R196). -/
theorem leads_clear {s : State} (h : s.Ready) (hph : s.seq.ph = .openBus) (hpend : s.pend = .none) :
    Leads (tickOf .clear) (2 + (7 + 2)) s fun u => ∃ w,
      Progress s (beginEvents s.cfg ++ commandEvents s.cfg s.bl 0x01 .nibble 0 ++ [.closed, delayEvent .clear]) w ∧
      w.session = 0 ∧ w.pend = .none ∧ u = w.respondOk := by
  refine (leads_beginCommands h hph).bind ?_
  rintro _ ⟨u, hu, hupend, -, rfl⟩
  refine Leads.bind (leads_nibbles (i := .clear) (fun _ => rfl) hu.ready 0x01 0) ?_
  rintro _ ⟨v, hv, hvpend, -, rfl⟩
  refine (leads_finishCommands (i := .clear) rfl hv.ready).mono (Nat.le_refl 2) ?_
  rintro _ ⟨w, hw, hsession, hwpend, rfl⟩
  have hall := (hu.trans hv).trans hw
  rw [hupend, hpend, hu.cfg_eq, hu.bl_eq, hvpend] at hall
  exact ⟨w, hall, hsession, hwpend, rfl⟩

/-- Settles O24: the one command of a CLEAR, by `leads_clear`. -/
theorem clearCompletes : Obligations.ClearCompletes := by
  intro s hidle hok hlive
  have hi : Instr.clear ≠ .blink 0 := nofun
  obtain ⟨hready, hph⟩ := started_ready hi hok hlive
  have hcfg : (s.started .clear).cfg = s.cfg := (sameRecord_started .clear s).cfg_eq
  obtain ⟨hbl, hpend, -⟩ := started_registers hi s
  have hlead := leads_clear hready hph hpend
  rw [hcfg, hbl] at hlead
  have hcompleted := commands_complete rfl hidle (by decide) hlead
  rw [countWrites_append, countWrites_append, countWrites_beginEvents, countWrites_nibbles, List.append_assoc] at hcompleted
  exact hcompleted

/-! ### PUTC -/

/-- The events of a PUTC between its session's begin and its response (42_character R160). -/
def putcBodyEvents (c : Config) (bl : Bit) (val pos : Byte) : List Event :=
  cursorEvents c bl pos ++ (if pos = posSentinel then [] else [delayEvent .std]) ++
    commandEvents c bl val .nibble 1 ++ [.closed, delayEvent .std]

theorem putcEvents_eq (c : Config) (bl : Bit) (val pos : Byte) :
    putcEvents c bl val pos = beginEvents c ++ putcBodyEvents c bl val pos ++ [.responded .ok] := by
  simp [putcEvents, putcBodyEvents]

section
variable {s : State} {val pos : Byte} (h : s.Ready) (hdecode : decode s.req0 s.req1 = .ok (.putc val pos))
include h hdecode

/-- The character and the end of the session (42_character R160). -/
theorem leads_putcChar : Leads (tickOf (.putc val pos)) (7 + 2) (putcChar s) fun u => ∃ w,
    Progress s (owedEvents s.pend ++ commandEvents s.cfg s.bl val .nibble 1 ++ [.closed, delayEvent .std]) w ∧
    w.session = 0 ∧ w.pend = .none ∧ u = w.respondOk := by
  have hval : s.valOf = val := by
    rw [State.valOf, req0_of_decode hdecode]
    exact fieldC_packWord 3 0 pos val
  rw [putcChar, hval]
  refine (leads_nibbles (i := .putc val pos) (fun _ => rfl) h val 1).bind ?_
  rintro _ ⟨v, hv, hvpend, hvseq, rfl⟩
  have hclose : nextOf (.putc val pos) v = v.goto .close := if_neg (by rw [hvseq]; change ¬(1 : Bit) = 0; decide)
  rw [hclose]
  refine (leads_finishCommands (i := .putc val pos) rfl hv.ready).mono (Nat.le_refl 2) ?_
  rintro _ ⟨w, hw, hsession, hwpend, rfl⟩
  rw [hvpend] at hw
  exact ⟨w, hv.trans hw, hsession, hwpend, rfl⟩

/-- The optional cursor-set and the character (42_character R160). -/
theorem leads_putcFirst (hpend : s.pend = .none) : Leads (tickOf (.putc val pos)) (7 + (7 + 2)) (putcFirst s) fun u => ∃ w,
    Progress s (putcBodyEvents s.cfg s.bl val pos) w ∧ w.session = 0 ∧ w.pend = .none ∧ u = w.respondOk := by
  have hpos : s.posOf = pos := by
    rw [State.posOf, req0_of_decode hdecode]
    exact fieldB_packWord 3 0 pos val
  by_cases hsentinel : pos = posSentinel
  · have hfirst : putcFirst s = putcChar s := if_pos (hpos.trans hsentinel)
    rw [hfirst]
    refine (leads_putcChar h hdecode).mono (by decide) ?_
    rintro _ ⟨w, hw, hsession, hwpend, rfl⟩
    refine ⟨w, ?_, hsession, hwpend, rfl⟩
    simpa [putcBodyEvents, cursorEvents, hsentinel, hpend] using hw
  · have hfirst : putcFirst s = s.issueCommand (cursorSet pos) 0 := by
      rw [putcFirst_of_ne_sentinel (hpos ▸ hsentinel), hpos]
    rw [hfirst]
    refine (leads_nibbles (i := .putc val pos) (fun _ => rfl) h (cursorSet pos) 0).bind ?_
    rintro _ ⟨v, hv, hvpend, hvseq, rfl⟩
    have hchar : nextOf (.putc val pos) v = putcChar v := if_pos (by rw [hvseq])
    rw [hchar]
    refine (leads_putcChar hv.ready (hv.decode_eq.trans hdecode)).mono (Nat.le_refl _) ?_
    rintro _ ⟨w, hw, hsession, hwpend, rfl⟩
    refine ⟨w, ?_, hsession, hwpend, rfl⟩
    have hall := hv.trans hw
    rw [hpend, hvpend, hv.cfg_eq, hv.bl_eq] at hall
    simpa [putcBodyEvents, cursorEvents, hsentinel, owedEvents] using hall

end

theorem countWrites_cursorEvents (c : Config) (bl : Bit) (pos : Byte) :
    countWrites (cursorEvents c bl pos) = cursorWrites pos := by
  unfold cursorEvents cursorWrites
  split
  · rfl
  · exact countWrites_nibbles ..

theorem countWrites_putcBodyEvents (c : Config) (bl : Bit) (val pos : Byte) :
    countWrites (putcBodyEvents c bl val pos) = cursorWrites pos + 6 := by
  have howed : countWrites (if pos = posSentinel then [] else [delayEvent .std]) = 0 := by split <;> rfl
  have hend : countWrites [.closed, delayEvent .std] = 0 := rfl
  simp only [putcBodyEvents, countWrites_append, countWrites_cursorEvents, countWrites_nibbles, howed, hend]

/-- Settles O19: the session's begin, then `leads_putcFirst`. -/
theorem putcCompletes : Obligations.PutcCompletes := by
  intro s val pos hidle hok hlive
  have hi : Instr.putc val pos ≠ .blink 0 := nofun
  obtain ⟨hready, hph⟩ := started_ready hi hok hlive
  have hcfg : (s.started (.putc val pos)).cfg = s.cfg := (sameRecord_started (.putc val pos) s).cfg_eq
  obtain ⟨hbl, hpend, -⟩ := started_registers hi s
  have hdecode := s.decode_started (.putc val pos)
  have hlead : Leads (tickOf (.putc val pos)) 18 (s.started (.putc val pos)) fun u => ∃ w,
      Progress (s.started (.putc val pos)) (beginEvents s.cfg ++ putcBodyEvents s.cfg s.bl val pos) w ∧
      w.session = 0 ∧ w.pend = .none ∧ u = doneOf (.putc val pos) w := by
    refine (leads_beginCommands hready hph).bind (b := 16) ?_
    rintro _ ⟨v, hv, hvpend, -, rfl⟩
    refine (leads_putcFirst hv.ready (hv.decode_eq.trans hdecode) (hvpend.trans hpend)).mono (Nat.le_refl _) ?_
    rintro _ ⟨w, hw, hsession, hwpend, rfl⟩
    rw [hv.cfg_eq, hv.bl_eq, hcfg, hbl] at hw
    rw [hcfg] at hv
    exact ⟨w, hv.trans hw, hsession, hwpend, rfl⟩
  have hcompleted := commands_complete rfl hidle (by decide) hlead
  rw [countWrites_append, countWrites_beginEvents, countWrites_putcBodyEvents, ← Nat.add_assoc] at hcompleted
  rw [putcEvents_eq]
  exact hcompleted

end Sys2Proof.Machine
end

section
/-! PROOFS. PUTS with every agent answering (spec 42_character R163 to R169): the optional cursor-set, then one character
after another, each read, then written, up to `LEN` or to the terminator. -/

namespace Sys2Proof.Machine

open Sys2Proof

/-! ### One character -/

/-- A PUTS is in its loop: at index `j`, with no change of the buffer to come from the host. -/
structure AtIndex (buf : Word) (pos len : Byte) (j : Nat) (s : State) : Prop where
  ready : s.Ready
  decode_eq : decode s.req0 s.req1 = .ok (.puts buf pos len)
  edits_eq : s.host.edits = []
  idx_eq : s.seq.idx = BitVec.ofNat 32 j

section
variable {buf : Word} {pos len : Byte} {j : Nat} {s u : State} {l : List Event}

theorem AtIndex.progress (h : AtIndex buf pos len j s) (hu : Progress s l u) {k : Nat}
    (hidx : u.seq.idx = BitVec.ofNat 32 k) : AtIndex buf pos len k u :=
  ⟨hu.ready, hu.decode_eq.trans h.decode_eq, by rw [hu.host_eq, h.edits_eq], hidx⟩

/-- The read of a byte, whatever it leads to (42_character R166). -/
theorem tickOf_read (h : AtIndex buf pos len j s) {v : Option Byte} (hv : s.bufferByte buf j = v) :
    tickOf (.puts buf pos len) (s.goto .read) =
      putsByte v ((s.goto .read).log (.readAt (bufferAddr buf (BitVec.ofNat 32 j)) v)) := by
  have hbuf : s.bufOf = buf := buf_of_decode h.decode_eq
  have hfires := (Fires.read (i := .puts buf pos len) (s := s.goto .read) rfl).functional
    (tickOf_fires ⟨rfl, nofun, nofun⟩)
  have hedits : (s.goto .read).hostEdits = s.goto .read := State.hostEdits_of_none h.edits_eq
  have hidx : (s.goto .read).seq.idx = BitVec.ofNat 32 j := h.idx_eq
  have hbuf' : (s.goto .read).bufOf = buf := hbuf
  rw [State.afterRead, hedits, hidx, hbuf'] at hfires
  rw [← hv]
  exact hfires

theorem progress_read (h : s.Ready) (addr : Word) (v : Option Byte) :
    Progress s [.readAt addr v] ((s.goto .read).log (.readAt addr v)) :=
  ⟨⟨h.asked_eq, h.abort_eq, h.allOk, h.live⟩, rfl, List.map_append, (BitVec.add_zero _).symm⟩

/-- A character that is not the terminator: its read, the delay owed by the command before it, and its command. -/
theorem leads_character (h : AtIndex buf pos len j s) (hloop : putsLoop s = s.goto .read) {b : Byte}
    (hbyte : s.bufferByte buf j = some b) (hterm : len = 0 → b ≠ 0) :
    Leads (tickOf (.puts buf pos len)) 8 (putsLoop s) fun u => ∃ w,
      Progress s ([.readAt (bufferAddr buf (BitVec.ofNat 32 j)) (some b)] ++
        (owedEvents s.pend ++ commandEvents s.cfg s.bl b .nibble 1)) w ∧
      w.pend = .std ∧ w.seq.idx = s.seq.idx ∧ w.seq.rs = 1 ∧ u = putsNext w := by
  have hread := progress_read h.ready (bufferAddr buf (BitVec.ofNat 32 j)) (some b)
  have hlen : s.lenOf = len := lenOf_of_decode h.decode_eq
  have hgo := tickOf_read h hbyte
  have hmore : putsByte (some b) ((s.goto .read).log (.readAt (bufferAddr buf (BitVec.ofNat 32 j)) (some b))) =
      .go (((s.goto .read).log (.readAt (bufferAddr buf (BitVec.ofNat 32 j)) (some b))).issueCommand b 1) := by
    refine if_neg fun ⟨hzero, hb⟩ => hterm ?_ hb
    exact hlen ▸ hzero
  rw [hloop]
  refine leads_of_go (a := 7) (hgo.trans hmore) ?_
  refine (leads_nibbles (i := .puts buf pos len) (fun _ => rfl) hread.ready b 1).mono (Nat.le_refl 7) ?_
  rintro _ ⟨w, hw, hpend, hseq, rfl⟩
  exact ⟨w, hread.trans hw, hpend, by rw [hseq]; rfl, by rw [hseq], rfl⟩

/-! ### The loop -/

/-- A byte is due at index `j`: in count mode the count is not reached, and in terminator mode the search goes on. -/
theorem putsLoop_of_due (h : AtIndex buf pos len j s) (hdue : len ≠ 0 → j < len.toNat) : putsLoop s = s.goto .read := by
  have hlen : s.lenOf = len := lenOf_of_decode h.decode_eq
  refine if_neg fun ⟨hne, hidx⟩ => ?_
  rw [hlen] at hne hidx
  have hj := hdue hne
  have hlt := len.isLt
  rw [h.idx_eq] at hidx
  have hnat := congrArg BitVec.toNat hidx
  simp only [BitVec.toNat_ofNat, BitVec.toNat_setWidth] at hnat
  omega

theorem putsLoop_of_count (h : AtIndex buf pos len j s) (hne : len ≠ 0) (hj : j = len.toNat) :
    putsLoop s = s.goto .close := by
  have hlen : s.lenOf = len := lenOf_of_decode h.decode_eq
  refine if_pos ⟨hlen ▸ hne, ?_⟩
  rw [hlen, h.idx_eq, hj]
  exact BitVec.eq_of_toNat_eq (by simp)

/-- After a character the next index, as long as the search is not exhausted. -/
theorem putsNext_of_character (h : AtIndex buf pos len j s) (hrs : s.seq.rs = 1) (hroom : len = 0 → j + 1 < 2 ^ 32) :
    putsNext s = putsLoop { s with seq := { s.seq with idx := s.seq.idx + 1 } } := by
  have hlen : s.lenOf = len := lenOf_of_decode h.decode_eq
  have hrs' : s.seq.rs ≠ 0 := by rw [hrs]; decide
  have hsearch : ¬s.searchExhausted = true := by
    simp only [State.searchExhausted, hlen, h.idx_eq, Bool.and_eq_true, decide_eq_true_eq, not_and]
    intro hzero hidx
    have hroom := hroom hzero
    have hnat : j % 2 ^ 32 = 4294967295 := by simpa using congrArg BitVec.toNat hidx
    omega
  rw [putsNext, if_neg hrs', if_neg hsearch]

end

/-- Whether a delay is owed, as the characters' events have it. -/
def owedDelay (owed : Bool) : DelayClass := if owed then .std else .none

/-- The characters of a PUTS from index `j` on. -/
theorem leads_characters {buf : Word} {pos len : Byte} {bytes : List Byte} {owed : Bool} {j : Nat} {s : State}
    (h : AtIndex buf pos len j s) (hpend : s.pend = owedDelay owed)
    (hbytes : ∀ k b, bytes[k]? = some b → s.bufferByte buf (j + k) = some b ∧ (len = 0 → b ≠ 0))
    (hcount : len ≠ 0 → j + bytes.length ≤ len.toNat) (hroom : len = 0 → j + bytes.length < 2 ^ 32) :
    Leads (tickOf (.puts buf pos len)) (8 * bytes.length) (putsLoop s) fun u => ∃ w,
      Progress s (charEvents s.cfg s.bl buf owed j bytes) w ∧ w.pend = owedDelay (owed || !bytes.isEmpty) ∧
      AtIndex buf pos len (j + bytes.length) w ∧ u = putsLoop w := by
  induction bytes generalizing owed j s with
  | nil => exact leads_here ⟨s, .refl h.ready, by simp [hpend], h, rfl⟩
  | cons b bs ih =>
    obtain ⟨hbyte, hterm⟩ := hbytes 0 b rfl
    have hloop := putsLoop_of_due h fun hne => by have := hcount hne; simp at this; omega
    refine ((leads_character h hloop hbyte hterm).bind (b := 8 * bs.length) ?_).mono (by simp; omega) fun _ h => h
    rintro _ ⟨w, hw, hwpend, hwidx, hwrs, rfl⟩
    have hat : AtIndex buf pos len j w := h.progress hw (hwidx.trans h.idx_eq)
    rw [putsNext_of_character hat hwrs fun hzero => by have := hroom hzero; simp at this; omega]
    have hnext := hw.reposition (q := { w.seq with idx := w.seq.idx + 1 }) hw.ready.asked_eq hw.ready.abort_eq w.pend
      w.session
    have hidx : w.seq.idx + 1 = BitVec.ofNat 32 (j + 1) := by
      rw [hwidx, h.idx_eq]
      exact (BitVec.ofNat_add j 1).symm
    have hlength : j + 1 + bs.length = j + (b :: bs).length := by simp; omega
    refine (ih (owed := true) (h.progress hnext hidx) hwpend (fun k c hc => ?_) (hlength ▸ hcount) (hlength ▸ hroom)).mono
      (Nat.le_refl _) ?_
    · have hbyte' := hbytes (k + 1) c (by simpa using hc)
      have hindex : j + (k + 1) = j + 1 + k := by omega
      simpa only [State.bufferByte, hw.mem_eq, hindex] using hbyte'
    · rintro _ ⟨v, hv, hvpend, hvat, rfl⟩
      refine ⟨v, ?_, by simpa using hvpend, hlength ▸ hvat, rfl⟩
      have hall := hnext.trans hv
      have howed : owedEvents s.pend = if owed then [delayEvent .std] else [] := by
        rw [hpend]
        cases owed <;> rfl
      rw [howed] at hall
      simp only [hw.cfg_eq, hw.bl_eq] at hall
      simpa [charEvents] using hall

/-! ### The whole request -/

section
variable {buf : Word} {pos len : Byte} {s : State} (h : AtIndex buf pos len 0 s)
include h

/-- The optional cursor-set (42_character R163). -/
theorem leads_putsFirst (hpend : s.pend = .none) : Leads (tickOf (.puts buf pos len)) 7 (putsFirst s) fun u => ∃ w,
    Progress s (cursorEvents s.cfg s.bl pos) w ∧ w.pend = owedDelay (pos != posSentinel) ∧ AtIndex buf pos len 0 w ∧
    u = putsLoop w := by
  have hpos : s.posOf = pos := by
    rw [State.posOf, req0_of_decode h.decode_eq]
    exact fieldB_packWord 4 len pos 0
  by_cases hsentinel : pos = posSentinel
  · have hfirst : putsFirst s = putsLoop s := if_pos (hpos.trans hsentinel)
    rw [hfirst, cursorEvents, if_pos hsentinel]
    refine (leads_here ⟨s, .refl h.ready, ?_, h, rfl⟩).mono (Nat.zero_le 7) fun _ h => h
    simp [hpend, hsentinel, owedDelay]
  · have hfirst : putsFirst s = s.issueCommand (cursorSet pos) 0 := by
      rw [putsFirst_of_ne_sentinel (hpos ▸ hsentinel), hpos]
    rw [hfirst, cursorEvents, if_neg hsentinel]
    refine (leads_nibbles (i := .puts buf pos len) (fun _ => rfl) h.ready (cursorSet pos) 0).mono (Nat.le_refl 7) ?_
    rintro _ ⟨w, hw, hwpend, hwseq, rfl⟩
    rw [hpend] at hw
    have hloop : nextOf (.puts buf pos len) w = putsLoop w := if_pos (by rw [hwseq])
    exact ⟨w, hw, by simp [hwpend, hsentinel, owedDelay], h.progress hw (by rw [hwseq]; exact h.idx_eq), hloop⟩

/-- The events of a PUTS between its session's begin and its response (42_character R163). -/
def putsBodyEvents (c : Config) (bl : Bit) (buf : Word) (pos : Byte) (bytes : List Byte) (last : List Event) :
    List Event :=
  cursorEvents c bl pos ++ charEvents c bl buf (pos != posSentinel) 0 bytes ++ last ++ [.closed] ++
    (if pos = posSentinel ∧ bytes = [] then [] else [delayEvent .std])

/-- A PUTS after its session's begin; `hend` is what the loop does once the characters have been written. -/
theorem leads_puts {bytes : List Byte} {last : List Event} (hpend : s.pend = .none)
    (hbytes : ∀ k b, bytes[k]? = some b → s.bufferByte buf k = some b ∧ (len = 0 → b ≠ 0))
    (hcount : len ≠ 0 → bytes.length ≤ len.toNat) (hroom : len = 0 → bytes.length < 2 ^ 32)
    (hend : ∀ w, AtIndex buf pos len bytes.length w → w.mem = s.mem →
      Leads (tickOf (.puts buf pos len)) 1 (putsLoop w) fun u =>
        ∃ v, Progress w last v ∧ v.pend = w.pend ∧ u = v.goto .close) :
    Leads (tickOf (.puts buf pos len)) (7 + (8 * bytes.length + (1 + 2))) (putsFirst s) fun u => ∃ w,
      Progress s (putsBodyEvents s.cfg s.bl buf pos bytes last) w ∧ w.session = 0 ∧ w.pend = .none ∧ u = w.respondOk := by
  refine (leads_putsFirst h hpend).bind ?_
  rintro _ ⟨w, hw, hwpend, hwat, rfl⟩
  refine (leads_characters hwat hwpend (fun k b hb => ?_) (by simpa using hcount) (by simpa using hroom)).bind ?_
  · simpa only [State.bufferByte, hw.mem_eq, Nat.zero_add] using hbytes k b hb
  rintro _ ⟨v, hv, hvpend, hvat, rfl⟩
  refine (hend v (by simpa using hvat) (hv.mem_eq.trans hw.mem_eq)).bind ?_
  rintro _ ⟨x, hx, hxpend, rfl⟩
  refine (leads_finishCommands (i := .puts buf pos len) rfl hx.ready).mono (Nat.le_refl 2) ?_
  rintro _ ⟨y, hy, hysession, hypend, rfl⟩
  refine ⟨y, ?_, hysession, hypend, rfl⟩
  have howed : owedEvents x.pend = if pos = posSentinel ∧ bytes = [] then [] else [delayEvent .std] := by
    rw [hxpend, hvpend]
    by_cases hsentinel : pos = posSentinel <;> cases bytes <;> simp [hsentinel, owedDelay, owedEvents]
  have hall := ((hw.trans hv).trans hx).trans hy
  rw [howed, hw.cfg_eq, hw.bl_eq] at hall
  simpa [putsBodyEvents] using hall

end

theorem countWrites_charEvents (c : Config) (bl : Bit) (buf : Word) (owed : Bool) (j : Nat) (bytes : List Byte) :
    countWrites (charEvents c bl buf owed j bytes) = 6 * bytes.length := by
  induction bytes generalizing owed j with
  | nil => rfl
  | cons b bs ih =>
    have hread : countWrites
        (.readAt (bufferAddr buf (BitVec.ofNat 32 j)) (some b) :: if owed then [delayEvent .std] else []) = 0 := by
      cases owed <;> rfl
    simp only [charEvents, countWrites_append, hread, countWrites_nibbles, ih, List.length_cons]
    omega

theorem countWrites_putsBodyEvents (c : Config) (bl : Bit) (buf : Word) (pos : Byte) (bytes : List Byte)
    {last : List Event} (hlast : countWrites last = 0) :
    countWrites (putsBodyEvents c bl buf pos bytes last) = cursorWrites pos + 6 * bytes.length := by
  have howed : countWrites (if pos = posSentinel ∧ bytes = [] then [] else [delayEvent .std]) = 0 := by split <;> rfl
  have hclosed : countWrites [.closed] = 0 := rfl
  simp only [putsBodyEvents, countWrites_append, countWrites_cursorEvents, countWrites_charEvents, hlast, hclosed, howed,
    Nat.add_zero]

theorem putsEvents_eq (c : Config) (bl : Bit) (buf : Word) (pos : Byte) (bytes : List Byte) (last : List Event) :
    putsEvents c bl buf pos bytes last = beginEvents c ++ putsBodyEvents c bl buf pos bytes last ++ [.responded .ok] := by
  simp [putsEvents, putsBodyEvents]

/-- A PUTS from its acceptance to its response; `hend` is what the loop does once the characters have been written. -/
theorem puts_completes {s : State} {buf : Word} {pos len : Byte} {bytes : List Byte} {last : List Event}
    (hidle : s.seq.ph = .idle) (hok : s.transport.allOk) (hlive : s.timer.live) (hedits : s.host.edits = [])
    (hbytes : ∀ k b, bytes[k]? = some b → s.bufferByte buf k = some b ∧ (len = 0 → b ≠ 0))
    (hcount : len ≠ 0 → bytes.length ≤ len.toNat) (hroom : len = 0 → bytes.length < 2 ^ 32)
    (hlast : countWrites last = 0)
    (hend : ∀ w, AtIndex buf pos len bytes.length w → w.mem = s.mem →
      Leads (tickOf (.puts buf pos len)) 1 (putsLoop w) fun u =>
        ∃ v, Progress w last v ∧ v.pend = w.pend ∧ u = v.goto .close) :
    ∃ t, exec (.puts buf pos len) s = .next t ∧
      Completed s t (encode (.puts buf pos len)) (beginWrites s.cfg + cursorWrites pos + 6 * bytes.length)
        (putsEvents s.cfg s.bl buf pos bytes last) ∧
      t.session = 0 ∧ t.bl = s.bl ∧ t.link = s.link ∧ t.pend = .none ∧ t.mem = s.mem := by
  have hi : Instr.puts buf pos len ≠ .blink 0 := nofun
  obtain ⟨hready, hph⟩ := started_ready hi hok hlive
  have hcfg : (s.started (.puts buf pos len)).cfg = s.cfg := (sameRecord_started (.puts buf pos len) s).cfg_eq
  obtain ⟨hbl, hpend, hidx, -, -, hmem, hhost⟩ := started_registers hi s
  have hdecode := s.decode_started (.puts buf pos len)
  have hshort : bytes.length < 2 ^ 32 := by
    by_cases hzero : len = 0
    · exact hroom hzero
    · exact ((hcount hzero).trans_lt len.isLt).trans (by decide)
  have hbound : 2 + (7 + (8 * bytes.length + (1 + 2))) < maxPrimitives := by
    rw [maxPrimitives]
    omega
  have hlead : Leads (tickOf (.puts buf pos len)) (2 + (7 + (8 * bytes.length + (1 + 2)))) (s.started (.puts buf pos len))
      fun u => ∃ w, Progress (s.started (.puts buf pos len))
        (beginEvents s.cfg ++ putsBodyEvents s.cfg s.bl buf pos bytes last) w ∧ w.session = 0 ∧ w.pend = .none ∧
        u = doneOf (.puts buf pos len) w := by
    refine (leads_beginCommands hready hph).bind ?_
    rintro _ ⟨v, hv, hvpend, hvidx, rfl⟩
    have hat : AtIndex buf pos len 0 v :=
      ⟨hv.ready, hv.decode_eq.trans hdecode, by rw [hv.host_eq, hhost, hedits], by rw [hvidx, hidx]; rfl⟩
    have hsame : v.mem = s.mem := hv.mem_eq.trans hmem
    refine (leads_puts hat (hvpend.trans hpend) (fun k b hb => ?_) hcount hroom fun w hw hwmem =>
      hend w hw (hwmem.trans hsame)).mono (Nat.le_refl _) ?_
    · simpa only [State.bufferByte, hsame] using hbytes k b hb
    · rintro _ ⟨w, hw, hsession, hwpend, rfl⟩
      rw [hv.cfg_eq, hv.bl_eq, hcfg, hbl] at hw
      rw [hcfg] at hv
      exact ⟨w, hv.trans hw, hsession, hwpend, rfl⟩
  have hcompleted := commands_complete rfl hidle hbound hlead
  rw [countWrites_append, countWrites_beginEvents, countWrites_putsBodyEvents _ _ _ _ _ hlast, ← Nat.add_assoc] at hcompleted
  rw [putsEvents_eq]
  exact hcompleted

/-- Settles O20: at the count the loop goes to its close without a read. -/
theorem putsCountModeCompletes : Obligations.PutsCountModeCompletes := by
  intro s buf pos len bytes hidle hok hlive hedits hne hlength hbytes
  rw [← hlength]
  refine puts_completes hidle hok hlive hedits (fun k b hb => ⟨hbytes k b hb, fun hzero => absurd hzero hne⟩)
    (fun _ => hlength.le) (fun hzero => absurd hzero hne) rfl fun w hw _ => ?_
  rw [putsLoop_of_count hw hne hlength]
  exact (leads_here ⟨w, .refl hw.ready, rfl, rfl⟩).mono (Nat.zero_le 1) fun _ h => h

/-- Settles O21: the terminator is read, and ends the loop. -/
theorem putsTerminatorModeCompletes : Obligations.PutsTerminatorModeCompletes := by
  intro s buf pos bytes hidle hok hlive hedits hroom hbytes hterm
  refine puts_completes hidle hok hlive hedits (fun k b hb => ⟨(hbytes k b hb).1, fun _ => (hbytes k b hb).2⟩)
    (fun hne => absurd rfl hne) (fun _ => hroom) rfl fun w hw hmem => ?_
  have hlen : w.lenOf = 0 := lenOf_of_decode hw.decode_eq
  have hbyte : w.bufferByte buf bytes.length = some 0 := by simpa only [State.bufferByte, hmem] using hterm
  rw [putsLoop_of_due hw fun hne => absurd rfl hne]
  have hread := progress_read hw.ready (bufferAddr buf (BitVec.ofNat 32 bytes.length)) (some 0)
  exact leads_of_go ((tickOf_read hw hbyte).trans (if_pos ⟨hlen, rfl⟩)) (leads_here ⟨_, hread, rfl, rfl⟩)

end Sys2Proof.Machine
end
